-- ==== Sys2Proof/Word.lean ====
section
/-! DEFINITION. The machine's two data widths (00_scope.md R6, R10). -/

namespace Sys2Proof

/-- A 16-bit datum or memory address (`XLEN` and `ALEN` of 00_scope.md R6). -/
abbrev Word := BitVec 16

/-- The smallest addressable unit of memory and I/O (00_scope.md R6). -/
abbrev Byte := BitVec 8

end Sys2Proof
end

