-- ==== Sys2Proof/Syntax.lean ====
section
/-! DEFINITION. The instruction set as syntax: registers, operand forms, one constructor of `Instr` for each of the
170 rows of spec/opcode_table.json (in the table's order), and the view `Form` that groups them by shape. -/

namespace Sys2Proof

/-- What a 4-bit register field names (10_state.md R24, 30_encoding.md R88): 0h to Bh are G0 to G11, Ch is FP, Dh is
SP (SSP or USP by P), Eh is USP, Fh is FLAG. -/
inductive Reg where
  | g (n : Fin 12)
  | fp
  | sp
  | usp
  | flag
deriving DecidableEq, Repr

/-- The two widths of a memory or I/O access (20_memory.md R50). -/
inductive Width where
  | word
  | byte
deriving DecidableEq, Repr

/-- The operand forms that name a memory location (30_encoding.md R89, modes 0, 1, 3, 6, 7). `dsp4` is the even signed
displacement Dsp4 itself, twice the field D4 (R93). These are also the five forms of ST (R100). -/
inductive MemEa where
  | direct (dsp : Word)
  | indexed (dsp : Word) (rx : Reg)
  | fpRel (dsp4 : Int)
  | indir (rx : Reg)
  | byteIndir (rx : Reg)
deriving DecidableEq, Repr

/-- The eight operand forms of R89: the five that name memory, and the Immediate, Register and 4bit Signed Immediate
forms, which name none. `imm4` is the signed value of the field I4 (R96). -/
inductive Operand where
  | mem (ea : MemEa)
  | imm (v : Word)
  | reg (rs : Reg)
  | imm4 (v : Int)
deriving DecidableEq, Repr

/-- The two forms of the jumps and CALL (R100). -/
inductive JumpEa where
  | direct (dsp : Word)
  | indexed (dsp : Word) (rx : Reg)
deriving DecidableEq, Repr

/-- The three forms of IN and OUT (R100, 44_io.md R180). -/
inductive IoEa where
  | direct (dsp : Word)
  | indir (rx : Reg)
  | byteIndir (rx : Reg)
deriving DecidableEq, Repr

/-- The fourteen instructions that compute a result and change the flags (10_state.md R35). -/
inductive AluOp where
  | add
  | sub
  | cmp
  | and
  | or
  | xor
  | adds
  | mul
  | div
  | mod
  | shla
  | shll
  | shra
  | shrl
deriving DecidableEq, Repr

/-- The fifteen jump conditions (30_encoding.md R101). -/
inductive Cond where
  | z
  | c
  | m
  | o
  | gt
  | ge
  | le
  | lt
  | nz
  | nc
  | nm
  | no
  | hi
  | ls
  | always
deriving DecidableEq, Repr

/-- Why an encoding that is neither an instruction nor an undefined OP value is refused (30_encoding.md R105). -/
inductive Reject where
  /-- A fixed field of the format is not as drawn: R84, R105 (a), U1, U4. -/
  | fixedField
  /-- A jump with the condition field Dh: R105 (b), U2. -/
  | jumpConditionD
  /-- OP = A6h, the conflicted Register Indirect jump: R105 (c), U3. -/
  | jumpIndirect
  /-- OP = AEh, the conflicted Register Indirect CALL: R105 (c), U3. -/
  | callIndirect
  /-- RETI with an Rd field other than Fh: R103, R105 (a), U4. -/
  | retiRd
deriving DecidableEq, Repr

/-- One constructor for each row of spec/opcode_table.json: the mnemonic and the addressing mode. -/
inductive Instr where
  | no
  | ldDirect (rd : Reg) (dsp : Word)
  | ldIndexed (rd : Reg) (dsp : Word) (rx : Reg)
  | ldImm (rd : Reg) (imm : Word)
  | ldFpRel (rd : Reg) (dsp4 : Int)
  | ldReg (rd : Reg) (rs : Reg)
  | ldImm4 (rd : Reg) (imm4 : Int)
  | ldIndir (rd : Reg) (rx : Reg)
  | ldByteIndir (rd : Reg) (rx : Reg)
  | stDirect (rd : Reg) (dsp : Word)
  | stIndexed (rd : Reg) (dsp : Word) (rx : Reg)
  | stFpRel (rd : Reg) (dsp4 : Int)
  | stIndir (rd : Reg) (rx : Reg)
  | stByteIndir (rd : Reg) (rx : Reg)
  | addDirect (rd : Reg) (dsp : Word)
  | addIndexed (rd : Reg) (dsp : Word) (rx : Reg)
  | addImm (rd : Reg) (imm : Word)
  | addFpRel (rd : Reg) (dsp4 : Int)
  | addReg (rd : Reg) (rs : Reg)
  | addImm4 (rd : Reg) (imm4 : Int)
  | addIndir (rd : Reg) (rx : Reg)
  | addByteIndir (rd : Reg) (rx : Reg)
  | subDirect (rd : Reg) (dsp : Word)
  | subIndexed (rd : Reg) (dsp : Word) (rx : Reg)
  | subImm (rd : Reg) (imm : Word)
  | subFpRel (rd : Reg) (dsp4 : Int)
  | subReg (rd : Reg) (rs : Reg)
  | subImm4 (rd : Reg) (imm4 : Int)
  | subIndir (rd : Reg) (rx : Reg)
  | subByteIndir (rd : Reg) (rx : Reg)
  | cmpDirect (rd : Reg) (dsp : Word)
  | cmpIndexed (rd : Reg) (dsp : Word) (rx : Reg)
  | cmpImm (rd : Reg) (imm : Word)
  | cmpFpRel (rd : Reg) (dsp4 : Int)
  | cmpReg (rd : Reg) (rs : Reg)
  | cmpImm4 (rd : Reg) (imm4 : Int)
  | cmpIndir (rd : Reg) (rx : Reg)
  | cmpByteIndir (rd : Reg) (rx : Reg)
  | andDirect (rd : Reg) (dsp : Word)
  | andIndexed (rd : Reg) (dsp : Word) (rx : Reg)
  | andImm (rd : Reg) (imm : Word)
  | andFpRel (rd : Reg) (dsp4 : Int)
  | andReg (rd : Reg) (rs : Reg)
  | andImm4 (rd : Reg) (imm4 : Int)
  | andIndir (rd : Reg) (rx : Reg)
  | andByteIndir (rd : Reg) (rx : Reg)
  | orDirect (rd : Reg) (dsp : Word)
  | orIndexed (rd : Reg) (dsp : Word) (rx : Reg)
  | orImm (rd : Reg) (imm : Word)
  | orFpRel (rd : Reg) (dsp4 : Int)
  | orReg (rd : Reg) (rs : Reg)
  | orImm4 (rd : Reg) (imm4 : Int)
  | orIndir (rd : Reg) (rx : Reg)
  | orByteIndir (rd : Reg) (rx : Reg)
  | xorDirect (rd : Reg) (dsp : Word)
  | xorIndexed (rd : Reg) (dsp : Word) (rx : Reg)
  | xorImm (rd : Reg) (imm : Word)
  | xorFpRel (rd : Reg) (dsp4 : Int)
  | xorReg (rd : Reg) (rs : Reg)
  | xorImm4 (rd : Reg) (imm4 : Int)
  | xorIndir (rd : Reg) (rx : Reg)
  | xorByteIndir (rd : Reg) (rx : Reg)
  | addsDirect (rd : Reg) (dsp : Word)
  | addsIndexed (rd : Reg) (dsp : Word) (rx : Reg)
  | addsImm (rd : Reg) (imm : Word)
  | addsFpRel (rd : Reg) (dsp4 : Int)
  | addsReg (rd : Reg) (rs : Reg)
  | addsImm4 (rd : Reg) (imm4 : Int)
  | addsIndir (rd : Reg) (rx : Reg)
  | addsByteIndir (rd : Reg) (rx : Reg)
  | mulDirect (rd : Reg) (dsp : Word)
  | mulIndexed (rd : Reg) (dsp : Word) (rx : Reg)
  | mulImm (rd : Reg) (imm : Word)
  | mulFpRel (rd : Reg) (dsp4 : Int)
  | mulReg (rd : Reg) (rs : Reg)
  | mulImm4 (rd : Reg) (imm4 : Int)
  | mulIndir (rd : Reg) (rx : Reg)
  | mulByteIndir (rd : Reg) (rx : Reg)
  | divDirect (rd : Reg) (dsp : Word)
  | divIndexed (rd : Reg) (dsp : Word) (rx : Reg)
  | divImm (rd : Reg) (imm : Word)
  | divFpRel (rd : Reg) (dsp4 : Int)
  | divReg (rd : Reg) (rs : Reg)
  | divImm4 (rd : Reg) (imm4 : Int)
  | divIndir (rd : Reg) (rx : Reg)
  | divByteIndir (rd : Reg) (rx : Reg)
  | modDirect (rd : Reg) (dsp : Word)
  | modIndexed (rd : Reg) (dsp : Word) (rx : Reg)
  | modImm (rd : Reg) (imm : Word)
  | modFpRel (rd : Reg) (dsp4 : Int)
  | modReg (rd : Reg) (rs : Reg)
  | modImm4 (rd : Reg) (imm4 : Int)
  | modIndir (rd : Reg) (rx : Reg)
  | modByteIndir (rd : Reg) (rx : Reg)
  | shlaDirect (rd : Reg) (dsp : Word)
  | shlaIndexed (rd : Reg) (dsp : Word) (rx : Reg)
  | shlaImm (rd : Reg) (imm : Word)
  | shlaFpRel (rd : Reg) (dsp4 : Int)
  | shlaReg (rd : Reg) (rs : Reg)
  | shlaImm4 (rd : Reg) (imm4 : Int)
  | shlaIndir (rd : Reg) (rx : Reg)
  | shlaByteIndir (rd : Reg) (rx : Reg)
  | shllDirect (rd : Reg) (dsp : Word)
  | shllIndexed (rd : Reg) (dsp : Word) (rx : Reg)
  | shllImm (rd : Reg) (imm : Word)
  | shllFpRel (rd : Reg) (dsp4 : Int)
  | shllReg (rd : Reg) (rs : Reg)
  | shllImm4 (rd : Reg) (imm4 : Int)
  | shllIndir (rd : Reg) (rx : Reg)
  | shllByteIndir (rd : Reg) (rx : Reg)
  | shraDirect (rd : Reg) (dsp : Word)
  | shraIndexed (rd : Reg) (dsp : Word) (rx : Reg)
  | shraImm (rd : Reg) (imm : Word)
  | shraFpRel (rd : Reg) (dsp4 : Int)
  | shraReg (rd : Reg) (rs : Reg)
  | shraImm4 (rd : Reg) (imm4 : Int)
  | shraIndir (rd : Reg) (rx : Reg)
  | shraByteIndir (rd : Reg) (rx : Reg)
  | shrlDirect (rd : Reg) (dsp : Word)
  | shrlIndexed (rd : Reg) (dsp : Word) (rx : Reg)
  | shrlImm (rd : Reg) (imm : Word)
  | shrlFpRel (rd : Reg) (dsp4 : Int)
  | shrlReg (rd : Reg) (rs : Reg)
  | shrlImm4 (rd : Reg) (imm4 : Int)
  | shrlIndir (rd : Reg) (rx : Reg)
  | shrlByteIndir (rd : Reg) (rx : Reg)
  | jzDirect (dsp : Word)
  | jzIndexed (dsp : Word) (rx : Reg)
  | jcDirect (dsp : Word)
  | jcIndexed (dsp : Word) (rx : Reg)
  | jmDirect (dsp : Word)
  | jmIndexed (dsp : Word) (rx : Reg)
  | joDirect (dsp : Word)
  | joIndexed (dsp : Word) (rx : Reg)
  | jgtDirect (dsp : Word)
  | jgtIndexed (dsp : Word) (rx : Reg)
  | jgeDirect (dsp : Word)
  | jgeIndexed (dsp : Word) (rx : Reg)
  | jleDirect (dsp : Word)
  | jleIndexed (dsp : Word) (rx : Reg)
  | jltDirect (dsp : Word)
  | jltIndexed (dsp : Word) (rx : Reg)
  | jnzDirect (dsp : Word)
  | jnzIndexed (dsp : Word) (rx : Reg)
  | jncDirect (dsp : Word)
  | jncIndexed (dsp : Word) (rx : Reg)
  | jnmDirect (dsp : Word)
  | jnmIndexed (dsp : Word) (rx : Reg)
  | jnoDirect (dsp : Word)
  | jnoIndexed (dsp : Word) (rx : Reg)
  | jhiDirect (dsp : Word)
  | jhiIndexed (dsp : Word) (rx : Reg)
  | jlsDirect (dsp : Word)
  | jlsIndexed (dsp : Word) (rx : Reg)
  | jmpDirect (dsp : Word)
  | jmpIndexed (dsp : Word) (rx : Reg)
  | callDirect (dsp : Word)
  | callIndexed (dsp : Word) (rx : Reg)
  | inDirect (rd : Reg) (dsp : Word)
  | inIndir (rd : Reg) (rx : Reg)
  | inByteIndir (rd : Reg) (rx : Reg)
  | outDirect (rd : Reg) (dsp : Word)
  | outIndir (rd : Reg) (rx : Reg)
  | outByteIndir (rd : Reg) (rx : Reg)
  | push (rd : Reg)
  | pop (rd : Reg)
  | ret
  | reti
  | svc
  | halt
deriving DecidableEq, Repr

/-- The shapes the rows fall into: an instruction of a family with its operand form as data. `Instr.form` is one to one. -/
inductive Form where
  | no
  | ld (rd : Reg) (x : Operand)
  | st (rd : Reg) (x : MemEa)
  | alu (op : AluOp) (rd : Reg) (x : Operand)
  | jump (cond : Cond) (x : JumpEa)
  | call (x : JumpEa)
  | inp (rd : Reg) (x : IoEa)
  | out (rd : Reg) (x : IoEa)
  | push (rd : Reg)
  | pop (rd : Reg)
  | ret
  | reti
  | svc
  | halt
deriving DecidableEq, Repr

/-- Each row's shape. -/
def Instr.form : Instr → Form
  | .no => .no
  | .ldDirect rd dsp => .ld rd (.mem (.direct dsp))
  | .ldIndexed rd dsp rx => .ld rd (.mem (.indexed dsp rx))
  | .ldImm rd imm => .ld rd (.imm imm)
  | .ldFpRel rd dsp4 => .ld rd (.mem (.fpRel dsp4))
  | .ldReg rd rs => .ld rd (.reg rs)
  | .ldImm4 rd imm4 => .ld rd (.imm4 imm4)
  | .ldIndir rd rx => .ld rd (.mem (.indir rx))
  | .ldByteIndir rd rx => .ld rd (.mem (.byteIndir rx))
  | .stDirect rd dsp => .st rd (.direct dsp)
  | .stIndexed rd dsp rx => .st rd (.indexed dsp rx)
  | .stFpRel rd dsp4 => .st rd (.fpRel dsp4)
  | .stIndir rd rx => .st rd (.indir rx)
  | .stByteIndir rd rx => .st rd (.byteIndir rx)
  | .addDirect rd dsp => .alu .add rd (.mem (.direct dsp))
  | .addIndexed rd dsp rx => .alu .add rd (.mem (.indexed dsp rx))
  | .addImm rd imm => .alu .add rd (.imm imm)
  | .addFpRel rd dsp4 => .alu .add rd (.mem (.fpRel dsp4))
  | .addReg rd rs => .alu .add rd (.reg rs)
  | .addImm4 rd imm4 => .alu .add rd (.imm4 imm4)
  | .addIndir rd rx => .alu .add rd (.mem (.indir rx))
  | .addByteIndir rd rx => .alu .add rd (.mem (.byteIndir rx))
  | .subDirect rd dsp => .alu .sub rd (.mem (.direct dsp))
  | .subIndexed rd dsp rx => .alu .sub rd (.mem (.indexed dsp rx))
  | .subImm rd imm => .alu .sub rd (.imm imm)
  | .subFpRel rd dsp4 => .alu .sub rd (.mem (.fpRel dsp4))
  | .subReg rd rs => .alu .sub rd (.reg rs)
  | .subImm4 rd imm4 => .alu .sub rd (.imm4 imm4)
  | .subIndir rd rx => .alu .sub rd (.mem (.indir rx))
  | .subByteIndir rd rx => .alu .sub rd (.mem (.byteIndir rx))
  | .cmpDirect rd dsp => .alu .cmp rd (.mem (.direct dsp))
  | .cmpIndexed rd dsp rx => .alu .cmp rd (.mem (.indexed dsp rx))
  | .cmpImm rd imm => .alu .cmp rd (.imm imm)
  | .cmpFpRel rd dsp4 => .alu .cmp rd (.mem (.fpRel dsp4))
  | .cmpReg rd rs => .alu .cmp rd (.reg rs)
  | .cmpImm4 rd imm4 => .alu .cmp rd (.imm4 imm4)
  | .cmpIndir rd rx => .alu .cmp rd (.mem (.indir rx))
  | .cmpByteIndir rd rx => .alu .cmp rd (.mem (.byteIndir rx))
  | .andDirect rd dsp => .alu .and rd (.mem (.direct dsp))
  | .andIndexed rd dsp rx => .alu .and rd (.mem (.indexed dsp rx))
  | .andImm rd imm => .alu .and rd (.imm imm)
  | .andFpRel rd dsp4 => .alu .and rd (.mem (.fpRel dsp4))
  | .andReg rd rs => .alu .and rd (.reg rs)
  | .andImm4 rd imm4 => .alu .and rd (.imm4 imm4)
  | .andIndir rd rx => .alu .and rd (.mem (.indir rx))
  | .andByteIndir rd rx => .alu .and rd (.mem (.byteIndir rx))
  | .orDirect rd dsp => .alu .or rd (.mem (.direct dsp))
  | .orIndexed rd dsp rx => .alu .or rd (.mem (.indexed dsp rx))
  | .orImm rd imm => .alu .or rd (.imm imm)
  | .orFpRel rd dsp4 => .alu .or rd (.mem (.fpRel dsp4))
  | .orReg rd rs => .alu .or rd (.reg rs)
  | .orImm4 rd imm4 => .alu .or rd (.imm4 imm4)
  | .orIndir rd rx => .alu .or rd (.mem (.indir rx))
  | .orByteIndir rd rx => .alu .or rd (.mem (.byteIndir rx))
  | .xorDirect rd dsp => .alu .xor rd (.mem (.direct dsp))
  | .xorIndexed rd dsp rx => .alu .xor rd (.mem (.indexed dsp rx))
  | .xorImm rd imm => .alu .xor rd (.imm imm)
  | .xorFpRel rd dsp4 => .alu .xor rd (.mem (.fpRel dsp4))
  | .xorReg rd rs => .alu .xor rd (.reg rs)
  | .xorImm4 rd imm4 => .alu .xor rd (.imm4 imm4)
  | .xorIndir rd rx => .alu .xor rd (.mem (.indir rx))
  | .xorByteIndir rd rx => .alu .xor rd (.mem (.byteIndir rx))
  | .addsDirect rd dsp => .alu .adds rd (.mem (.direct dsp))
  | .addsIndexed rd dsp rx => .alu .adds rd (.mem (.indexed dsp rx))
  | .addsImm rd imm => .alu .adds rd (.imm imm)
  | .addsFpRel rd dsp4 => .alu .adds rd (.mem (.fpRel dsp4))
  | .addsReg rd rs => .alu .adds rd (.reg rs)
  | .addsImm4 rd imm4 => .alu .adds rd (.imm4 imm4)
  | .addsIndir rd rx => .alu .adds rd (.mem (.indir rx))
  | .addsByteIndir rd rx => .alu .adds rd (.mem (.byteIndir rx))
  | .mulDirect rd dsp => .alu .mul rd (.mem (.direct dsp))
  | .mulIndexed rd dsp rx => .alu .mul rd (.mem (.indexed dsp rx))
  | .mulImm rd imm => .alu .mul rd (.imm imm)
  | .mulFpRel rd dsp4 => .alu .mul rd (.mem (.fpRel dsp4))
  | .mulReg rd rs => .alu .mul rd (.reg rs)
  | .mulImm4 rd imm4 => .alu .mul rd (.imm4 imm4)
  | .mulIndir rd rx => .alu .mul rd (.mem (.indir rx))
  | .mulByteIndir rd rx => .alu .mul rd (.mem (.byteIndir rx))
  | .divDirect rd dsp => .alu .div rd (.mem (.direct dsp))
  | .divIndexed rd dsp rx => .alu .div rd (.mem (.indexed dsp rx))
  | .divImm rd imm => .alu .div rd (.imm imm)
  | .divFpRel rd dsp4 => .alu .div rd (.mem (.fpRel dsp4))
  | .divReg rd rs => .alu .div rd (.reg rs)
  | .divImm4 rd imm4 => .alu .div rd (.imm4 imm4)
  | .divIndir rd rx => .alu .div rd (.mem (.indir rx))
  | .divByteIndir rd rx => .alu .div rd (.mem (.byteIndir rx))
  | .modDirect rd dsp => .alu .mod rd (.mem (.direct dsp))
  | .modIndexed rd dsp rx => .alu .mod rd (.mem (.indexed dsp rx))
  | .modImm rd imm => .alu .mod rd (.imm imm)
  | .modFpRel rd dsp4 => .alu .mod rd (.mem (.fpRel dsp4))
  | .modReg rd rs => .alu .mod rd (.reg rs)
  | .modImm4 rd imm4 => .alu .mod rd (.imm4 imm4)
  | .modIndir rd rx => .alu .mod rd (.mem (.indir rx))
  | .modByteIndir rd rx => .alu .mod rd (.mem (.byteIndir rx))
  | .shlaDirect rd dsp => .alu .shla rd (.mem (.direct dsp))
  | .shlaIndexed rd dsp rx => .alu .shla rd (.mem (.indexed dsp rx))
  | .shlaImm rd imm => .alu .shla rd (.imm imm)
  | .shlaFpRel rd dsp4 => .alu .shla rd (.mem (.fpRel dsp4))
  | .shlaReg rd rs => .alu .shla rd (.reg rs)
  | .shlaImm4 rd imm4 => .alu .shla rd (.imm4 imm4)
  | .shlaIndir rd rx => .alu .shla rd (.mem (.indir rx))
  | .shlaByteIndir rd rx => .alu .shla rd (.mem (.byteIndir rx))
  | .shllDirect rd dsp => .alu .shll rd (.mem (.direct dsp))
  | .shllIndexed rd dsp rx => .alu .shll rd (.mem (.indexed dsp rx))
  | .shllImm rd imm => .alu .shll rd (.imm imm)
  | .shllFpRel rd dsp4 => .alu .shll rd (.mem (.fpRel dsp4))
  | .shllReg rd rs => .alu .shll rd (.reg rs)
  | .shllImm4 rd imm4 => .alu .shll rd (.imm4 imm4)
  | .shllIndir rd rx => .alu .shll rd (.mem (.indir rx))
  | .shllByteIndir rd rx => .alu .shll rd (.mem (.byteIndir rx))
  | .shraDirect rd dsp => .alu .shra rd (.mem (.direct dsp))
  | .shraIndexed rd dsp rx => .alu .shra rd (.mem (.indexed dsp rx))
  | .shraImm rd imm => .alu .shra rd (.imm imm)
  | .shraFpRel rd dsp4 => .alu .shra rd (.mem (.fpRel dsp4))
  | .shraReg rd rs => .alu .shra rd (.reg rs)
  | .shraImm4 rd imm4 => .alu .shra rd (.imm4 imm4)
  | .shraIndir rd rx => .alu .shra rd (.mem (.indir rx))
  | .shraByteIndir rd rx => .alu .shra rd (.mem (.byteIndir rx))
  | .shrlDirect rd dsp => .alu .shrl rd (.mem (.direct dsp))
  | .shrlIndexed rd dsp rx => .alu .shrl rd (.mem (.indexed dsp rx))
  | .shrlImm rd imm => .alu .shrl rd (.imm imm)
  | .shrlFpRel rd dsp4 => .alu .shrl rd (.mem (.fpRel dsp4))
  | .shrlReg rd rs => .alu .shrl rd (.reg rs)
  | .shrlImm4 rd imm4 => .alu .shrl rd (.imm4 imm4)
  | .shrlIndir rd rx => .alu .shrl rd (.mem (.indir rx))
  | .shrlByteIndir rd rx => .alu .shrl rd (.mem (.byteIndir rx))
  | .jzDirect dsp => .jump .z (.direct dsp)
  | .jzIndexed dsp rx => .jump .z (.indexed dsp rx)
  | .jcDirect dsp => .jump .c (.direct dsp)
  | .jcIndexed dsp rx => .jump .c (.indexed dsp rx)
  | .jmDirect dsp => .jump .m (.direct dsp)
  | .jmIndexed dsp rx => .jump .m (.indexed dsp rx)
  | .joDirect dsp => .jump .o (.direct dsp)
  | .joIndexed dsp rx => .jump .o (.indexed dsp rx)
  | .jgtDirect dsp => .jump .gt (.direct dsp)
  | .jgtIndexed dsp rx => .jump .gt (.indexed dsp rx)
  | .jgeDirect dsp => .jump .ge (.direct dsp)
  | .jgeIndexed dsp rx => .jump .ge (.indexed dsp rx)
  | .jleDirect dsp => .jump .le (.direct dsp)
  | .jleIndexed dsp rx => .jump .le (.indexed dsp rx)
  | .jltDirect dsp => .jump .lt (.direct dsp)
  | .jltIndexed dsp rx => .jump .lt (.indexed dsp rx)
  | .jnzDirect dsp => .jump .nz (.direct dsp)
  | .jnzIndexed dsp rx => .jump .nz (.indexed dsp rx)
  | .jncDirect dsp => .jump .nc (.direct dsp)
  | .jncIndexed dsp rx => .jump .nc (.indexed dsp rx)
  | .jnmDirect dsp => .jump .nm (.direct dsp)
  | .jnmIndexed dsp rx => .jump .nm (.indexed dsp rx)
  | .jnoDirect dsp => .jump .no (.direct dsp)
  | .jnoIndexed dsp rx => .jump .no (.indexed dsp rx)
  | .jhiDirect dsp => .jump .hi (.direct dsp)
  | .jhiIndexed dsp rx => .jump .hi (.indexed dsp rx)
  | .jlsDirect dsp => .jump .ls (.direct dsp)
  | .jlsIndexed dsp rx => .jump .ls (.indexed dsp rx)
  | .jmpDirect dsp => .jump .always (.direct dsp)
  | .jmpIndexed dsp rx => .jump .always (.indexed dsp rx)
  | .callDirect dsp => .call (.direct dsp)
  | .callIndexed dsp rx => .call (.indexed dsp rx)
  | .inDirect rd dsp => .inp rd (.direct dsp)
  | .inIndir rd rx => .inp rd (.indir rx)
  | .inByteIndir rd rx => .inp rd (.byteIndir rx)
  | .outDirect rd dsp => .out rd (.direct dsp)
  | .outIndir rd rx => .out rd (.indir rx)
  | .outByteIndir rd rx => .out rd (.byteIndir rx)
  | .push rd => .push rd
  | .pop rd => .pop rd
  | .ret => .ret
  | .reti => .reti
  | .svc => .svc
  | .halt => .halt

end Sys2Proof
end

