-- ==== Sys2Proof/WellFormed.lean ====
section
/-! DEFINITION. Which syntax the encoding admits. Register numbers and 16-bit second words are legal whatever they are
(10_state.md R24, 30_encoding.md R85); the two signed fields have a range. -/

namespace Sys2Proof

/-- "with FP relative, Dsp4 is an even number from -16 to +14" (30_encoding.md R93). -/
def dsp4Ok (d : Int) : Bool := d % 2 == 0 && decide (-16 ≤ d) && decide (d ≤ 14)

/-- A 4-bit signed immediate is -8 to +7 (30_encoding.md R96). -/
def imm4Ok (v : Int) : Bool := decide (-8 ≤ v) && decide (v ≤ 7)

/-- The check of a memory form. -/
def MemEa.wf : MemEa → Bool
  | .direct _ => true
  | .indexed _ _ => true
  | .fpRel d => dsp4Ok d
  | .indir _ => true
  | .byteIndir _ => true

/-- The check of an operand form. -/
def Operand.wf : Operand → Bool
  | .mem ea => ea.wf
  | .imm _ => true
  | .reg _ => true
  | .imm4 v => imm4Ok v

/-- The check of a shape. -/
def Form.wf : Form → Bool
  | .no => true
  | .ld _ x => x.wf
  | .st _ x => x.wf
  | .alu _ _ x => x.wf
  | .jump _ _ => true
  | .call _ => true
  | .inp _ _ => true
  | .out _ _ => true
  | .push _ => true
  | .pop _ => true
  | .ret => true
  | .reti => true
  | .svc => true
  | .halt => true

/-- An instruction the encoding admits: its Dsp4 or Imm4, if it has one, fits the 4-bit field. -/
def Instr.wf (i : Instr) : Bool := i.form.wf

end Sys2Proof
end

