-- ==== Sys2Proof/Decode.lean ====
section
/-! DEFINITION. The decoder (30_encoding.md R80 to R111), total on any words, and after it the encoder written from the
same tables. -/

namespace Sys2Proof

/-! ## Fields and bytes -/

/-- OP, bits 15 to 8 of the first word (R81). -/
def opField (w : Word) : BitVec 8 := w.extractLsb' 8 8

/-- Rd, bits 7 to 4 of the first word (R81). -/
def rdField (w : Word) : BitVec 4 := w.extractLsb' 4 4

/-- Rx, bits 3 to 0 of the first word (R81). -/
def rxField (w : Word) : BitVec 4 := w.extractLsb' 0 4

/-- The first word with the given fields: `OP * 256 + Rd * 16 + Rx` (R81). -/
def firstWord (op : Nat) (rd rx : BitVec 4) : Word := BitVec.ofNat 8 op ++ rd ++ rx

/-- The more significant byte of a word, the one at the even address (20_memory.md R51). -/
def hiByte (w : Word) : Byte := w.extractLsb' 8 8

/-- The less significant byte of a word, the one at the odd address (20_memory.md R51). -/
def loByte (w : Word) : Byte := w.extractLsb' 0 8

/-- The word of the byte at the even address and the byte at the odd one, big-endian (20_memory.md R51). -/
def joinBytes (hi lo : Byte) : Word := hi ++ lo

/-- The register a 4-bit field names (R88, 10_state.md R24). -/
def Reg.ofField (f : BitVec 4) : Reg :=
  if h : f.toNat < 12 then .g ⟨f.toNat, h⟩
  else if f = 12 then .fp
  else if f = 13 then .sp
  else if f = 14 then .usp
  else .flag

/-- The register's 4-bit number (R88, 10_state.md R24). -/
def Reg.toField : Reg → BitVec 4
  | .g n => BitVec.ofNat 4 n.val
  | .fp => 12
  | .sp => 13
  | .usp => 14
  | .flag => 15

/-- Dsp4 from the field D4: `Dsp4 = 2 * signed4(D4)` (R93). -/
def dsp4OfField (f : BitVec 4) : Int := 2 * f.toInt

/-- The field D4 of a displacement: "D4 is half of Dsp4" (R93). -/
def dsp4ToField (d : Int) : BitVec 4 := BitVec.ofInt 4 (d / 2)

/-- Imm4 from the field I4: its signed value (R96). -/
def imm4OfField (f : BitVec 4) : Int := f.toInt

/-- The field I4 of a 4-bit signed immediate (R96). -/
def imm4ToField (v : Int) : BitVec 4 := BitVec.ofInt 4 v

/-- The condition a jump's Rd field names; Dh names none (R101). -/
def Cond.ofField (f : BitVec 4) : Option Cond :=
  match f.toNat with
  | 0 => some .z
  | 1 => some .c
  | 2 => some .m
  | 3 => some .o
  | 4 => some .gt
  | 5 => some .ge
  | 6 => some .le
  | 7 => some .lt
  | 8 => some .nz
  | 9 => some .nc
  | 10 => some .nm
  | 11 => some .no
  | 12 => some .hi
  | 14 => some .ls
  | 15 => some .always
  | _ => none

/-- The condition's number in the Rd field (R101). -/
def Cond.toField : Cond → BitVec 4
  | .z => 0
  | .c => 1
  | .m => 2
  | .o => 3
  | .gt => 4
  | .ge => 5
  | .le => 6
  | .lt => 7
  | .nz => 8
  | .nc => 9
  | .nm => 10
  | .no => 11
  | .hi => 12
  | .ls => 14
  | .always => 15

/-! ## Rows from shapes -/

/-- The row of LD with an operand form. -/
def Instr.ofLd (rd : Reg) : Operand → Instr
  | .mem (.direct dsp) => .ldDirect rd dsp
  | .mem (.indexed dsp rx) => .ldIndexed rd dsp rx
  | .imm imm => .ldImm rd imm
  | .mem (.fpRel dsp4) => .ldFpRel rd dsp4
  | .reg rs => .ldReg rd rs
  | .imm4 imm4 => .ldImm4 rd imm4
  | .mem (.indir rx) => .ldIndir rd rx
  | .mem (.byteIndir rx) => .ldByteIndir rd rx

/-- The row of ST with an operand form. -/
def Instr.ofSt (rd : Reg) : MemEa → Instr
  | .direct dsp => .stDirect rd dsp
  | .indexed dsp rx => .stIndexed rd dsp rx
  | .fpRel dsp4 => .stFpRel rd dsp4
  | .indir rx => .stIndir rd rx
  | .byteIndir rx => .stByteIndir rd rx

/-- The row of a flag-changing instruction with an operand form. -/
def Instr.ofAlu (op : AluOp) (rd : Reg) (x : Operand) : Instr :=
  match op, x with
  | .add, .mem (.direct dsp) => .addDirect rd dsp
  | .add, .mem (.indexed dsp rx) => .addIndexed rd dsp rx
  | .add, .imm imm => .addImm rd imm
  | .add, .mem (.fpRel dsp4) => .addFpRel rd dsp4
  | .add, .reg rs => .addReg rd rs
  | .add, .imm4 imm4 => .addImm4 rd imm4
  | .add, .mem (.indir rx) => .addIndir rd rx
  | .add, .mem (.byteIndir rx) => .addByteIndir rd rx
  | .sub, .mem (.direct dsp) => .subDirect rd dsp
  | .sub, .mem (.indexed dsp rx) => .subIndexed rd dsp rx
  | .sub, .imm imm => .subImm rd imm
  | .sub, .mem (.fpRel dsp4) => .subFpRel rd dsp4
  | .sub, .reg rs => .subReg rd rs
  | .sub, .imm4 imm4 => .subImm4 rd imm4
  | .sub, .mem (.indir rx) => .subIndir rd rx
  | .sub, .mem (.byteIndir rx) => .subByteIndir rd rx
  | .cmp, .mem (.direct dsp) => .cmpDirect rd dsp
  | .cmp, .mem (.indexed dsp rx) => .cmpIndexed rd dsp rx
  | .cmp, .imm imm => .cmpImm rd imm
  | .cmp, .mem (.fpRel dsp4) => .cmpFpRel rd dsp4
  | .cmp, .reg rs => .cmpReg rd rs
  | .cmp, .imm4 imm4 => .cmpImm4 rd imm4
  | .cmp, .mem (.indir rx) => .cmpIndir rd rx
  | .cmp, .mem (.byteIndir rx) => .cmpByteIndir rd rx
  | .and, .mem (.direct dsp) => .andDirect rd dsp
  | .and, .mem (.indexed dsp rx) => .andIndexed rd dsp rx
  | .and, .imm imm => .andImm rd imm
  | .and, .mem (.fpRel dsp4) => .andFpRel rd dsp4
  | .and, .reg rs => .andReg rd rs
  | .and, .imm4 imm4 => .andImm4 rd imm4
  | .and, .mem (.indir rx) => .andIndir rd rx
  | .and, .mem (.byteIndir rx) => .andByteIndir rd rx
  | .or, .mem (.direct dsp) => .orDirect rd dsp
  | .or, .mem (.indexed dsp rx) => .orIndexed rd dsp rx
  | .or, .imm imm => .orImm rd imm
  | .or, .mem (.fpRel dsp4) => .orFpRel rd dsp4
  | .or, .reg rs => .orReg rd rs
  | .or, .imm4 imm4 => .orImm4 rd imm4
  | .or, .mem (.indir rx) => .orIndir rd rx
  | .or, .mem (.byteIndir rx) => .orByteIndir rd rx
  | .xor, .mem (.direct dsp) => .xorDirect rd dsp
  | .xor, .mem (.indexed dsp rx) => .xorIndexed rd dsp rx
  | .xor, .imm imm => .xorImm rd imm
  | .xor, .mem (.fpRel dsp4) => .xorFpRel rd dsp4
  | .xor, .reg rs => .xorReg rd rs
  | .xor, .imm4 imm4 => .xorImm4 rd imm4
  | .xor, .mem (.indir rx) => .xorIndir rd rx
  | .xor, .mem (.byteIndir rx) => .xorByteIndir rd rx
  | .adds, .mem (.direct dsp) => .addsDirect rd dsp
  | .adds, .mem (.indexed dsp rx) => .addsIndexed rd dsp rx
  | .adds, .imm imm => .addsImm rd imm
  | .adds, .mem (.fpRel dsp4) => .addsFpRel rd dsp4
  | .adds, .reg rs => .addsReg rd rs
  | .adds, .imm4 imm4 => .addsImm4 rd imm4
  | .adds, .mem (.indir rx) => .addsIndir rd rx
  | .adds, .mem (.byteIndir rx) => .addsByteIndir rd rx
  | .mul, .mem (.direct dsp) => .mulDirect rd dsp
  | .mul, .mem (.indexed dsp rx) => .mulIndexed rd dsp rx
  | .mul, .imm imm => .mulImm rd imm
  | .mul, .mem (.fpRel dsp4) => .mulFpRel rd dsp4
  | .mul, .reg rs => .mulReg rd rs
  | .mul, .imm4 imm4 => .mulImm4 rd imm4
  | .mul, .mem (.indir rx) => .mulIndir rd rx
  | .mul, .mem (.byteIndir rx) => .mulByteIndir rd rx
  | .div, .mem (.direct dsp) => .divDirect rd dsp
  | .div, .mem (.indexed dsp rx) => .divIndexed rd dsp rx
  | .div, .imm imm => .divImm rd imm
  | .div, .mem (.fpRel dsp4) => .divFpRel rd dsp4
  | .div, .reg rs => .divReg rd rs
  | .div, .imm4 imm4 => .divImm4 rd imm4
  | .div, .mem (.indir rx) => .divIndir rd rx
  | .div, .mem (.byteIndir rx) => .divByteIndir rd rx
  | .mod, .mem (.direct dsp) => .modDirect rd dsp
  | .mod, .mem (.indexed dsp rx) => .modIndexed rd dsp rx
  | .mod, .imm imm => .modImm rd imm
  | .mod, .mem (.fpRel dsp4) => .modFpRel rd dsp4
  | .mod, .reg rs => .modReg rd rs
  | .mod, .imm4 imm4 => .modImm4 rd imm4
  | .mod, .mem (.indir rx) => .modIndir rd rx
  | .mod, .mem (.byteIndir rx) => .modByteIndir rd rx
  | .shla, .mem (.direct dsp) => .shlaDirect rd dsp
  | .shla, .mem (.indexed dsp rx) => .shlaIndexed rd dsp rx
  | .shla, .imm imm => .shlaImm rd imm
  | .shla, .mem (.fpRel dsp4) => .shlaFpRel rd dsp4
  | .shla, .reg rs => .shlaReg rd rs
  | .shla, .imm4 imm4 => .shlaImm4 rd imm4
  | .shla, .mem (.indir rx) => .shlaIndir rd rx
  | .shla, .mem (.byteIndir rx) => .shlaByteIndir rd rx
  | .shll, .mem (.direct dsp) => .shllDirect rd dsp
  | .shll, .mem (.indexed dsp rx) => .shllIndexed rd dsp rx
  | .shll, .imm imm => .shllImm rd imm
  | .shll, .mem (.fpRel dsp4) => .shllFpRel rd dsp4
  | .shll, .reg rs => .shllReg rd rs
  | .shll, .imm4 imm4 => .shllImm4 rd imm4
  | .shll, .mem (.indir rx) => .shllIndir rd rx
  | .shll, .mem (.byteIndir rx) => .shllByteIndir rd rx
  | .shra, .mem (.direct dsp) => .shraDirect rd dsp
  | .shra, .mem (.indexed dsp rx) => .shraIndexed rd dsp rx
  | .shra, .imm imm => .shraImm rd imm
  | .shra, .mem (.fpRel dsp4) => .shraFpRel rd dsp4
  | .shra, .reg rs => .shraReg rd rs
  | .shra, .imm4 imm4 => .shraImm4 rd imm4
  | .shra, .mem (.indir rx) => .shraIndir rd rx
  | .shra, .mem (.byteIndir rx) => .shraByteIndir rd rx
  | .shrl, .mem (.direct dsp) => .shrlDirect rd dsp
  | .shrl, .mem (.indexed dsp rx) => .shrlIndexed rd dsp rx
  | .shrl, .imm imm => .shrlImm rd imm
  | .shrl, .mem (.fpRel dsp4) => .shrlFpRel rd dsp4
  | .shrl, .reg rs => .shrlReg rd rs
  | .shrl, .imm4 imm4 => .shrlImm4 rd imm4
  | .shrl, .mem (.indir rx) => .shrlIndir rd rx
  | .shrl, .mem (.byteIndir rx) => .shrlByteIndir rd rx

/-- The row of a jump with an operand form. -/
def Instr.ofJump (cond : Cond) (x : JumpEa) : Instr :=
  match cond, x with
  | .z, .direct dsp => .jzDirect dsp
  | .z, .indexed dsp rx => .jzIndexed dsp rx
  | .c, .direct dsp => .jcDirect dsp
  | .c, .indexed dsp rx => .jcIndexed dsp rx
  | .m, .direct dsp => .jmDirect dsp
  | .m, .indexed dsp rx => .jmIndexed dsp rx
  | .o, .direct dsp => .joDirect dsp
  | .o, .indexed dsp rx => .joIndexed dsp rx
  | .gt, .direct dsp => .jgtDirect dsp
  | .gt, .indexed dsp rx => .jgtIndexed dsp rx
  | .ge, .direct dsp => .jgeDirect dsp
  | .ge, .indexed dsp rx => .jgeIndexed dsp rx
  | .le, .direct dsp => .jleDirect dsp
  | .le, .indexed dsp rx => .jleIndexed dsp rx
  | .lt, .direct dsp => .jltDirect dsp
  | .lt, .indexed dsp rx => .jltIndexed dsp rx
  | .nz, .direct dsp => .jnzDirect dsp
  | .nz, .indexed dsp rx => .jnzIndexed dsp rx
  | .nc, .direct dsp => .jncDirect dsp
  | .nc, .indexed dsp rx => .jncIndexed dsp rx
  | .nm, .direct dsp => .jnmDirect dsp
  | .nm, .indexed dsp rx => .jnmIndexed dsp rx
  | .no, .direct dsp => .jnoDirect dsp
  | .no, .indexed dsp rx => .jnoIndexed dsp rx
  | .hi, .direct dsp => .jhiDirect dsp
  | .hi, .indexed dsp rx => .jhiIndexed dsp rx
  | .ls, .direct dsp => .jlsDirect dsp
  | .ls, .indexed dsp rx => .jlsIndexed dsp rx
  | .always, .direct dsp => .jmpDirect dsp
  | .always, .indexed dsp rx => .jmpIndexed dsp rx

/-- The row of CALL with an operand form. -/
def Instr.ofCall : JumpEa → Instr
  | .direct dsp => .callDirect dsp
  | .indexed dsp rx => .callIndexed dsp rx

/-- The row of IN with an operand form. -/
def Instr.ofIn (rd : Reg) : IoEa → Instr
  | .direct dsp => .inDirect rd dsp
  | .indir rx => .inIndir rd rx
  | .byteIndir rx => .inByteIndir rd rx

/-- The row of OUT with an operand form. -/
def Instr.ofOut (rd : Reg) : IoEa → Instr
  | .direct dsp => .outDirect rd dsp
  | .indir rx => .outIndir rd rx
  | .byteIndir rx => .outByteIndir rd rx

/-! ## The decoder -/

/-- What a first word is (R111): an instruction, an undefined OP value (which raises an exception, R104), or an encoding
refused by name (R105). -/
inductive Decoded where
  | instr (i : Instr)
  | undefined
  | rejected (why : Reject)
deriving DecidableEq, Repr

/-- The instruction, when a field drawn 0h is 0 (R84, R105 (a)). -/
def whenZero (f : BitVec 4) (d : Decoded) : Decoded := if f = 0 then d else .rejected .fixedField

/-- The instructions that have all eight modes, by `m = OP[2:0]` (R89, R99). -/
def decodeOperand (mk : Operand → Instr) (m : Nat) (rx : BitVec 4) (w2 : Word) : Decoded :=
  match m with
  | 0 => whenZero rx (.instr (mk (.mem (.direct w2))))
  | 1 => .instr (mk (.mem (.indexed w2 (Reg.ofField rx))))
  | 2 => whenZero rx (.instr (mk (.imm w2)))
  | 3 => .instr (mk (.mem (.fpRel (dsp4OfField rx))))
  | 4 => .instr (mk (.reg (Reg.ofField rx)))
  | 5 => .instr (mk (.imm4 (imm4OfField rx)))
  | 6 => .instr (mk (.mem (.indir (Reg.ofField rx))))
  | 7 => .instr (mk (.mem (.byteIndir (Reg.ofField rx))))
  | _ => .undefined

/-- ST: modes 0, 1, 3, 6, 7 (R99, R100). -/
def decodeStore (rd : Reg) (m : Nat) (rx : BitVec 4) (w2 : Word) : Decoded :=
  match m with
  | 0 => whenZero rx (.instr (.ofSt rd (.direct w2)))
  | 1 => .instr (.ofSt rd (.indexed w2 (Reg.ofField rx)))
  | 3 => .instr (.ofSt rd (.fpRel (dsp4OfField rx)))
  | 6 => .instr (.ofSt rd (.indir (Reg.ofField rx)))
  | 7 => .instr (.ofSt rd (.byteIndir (Reg.ofField rx)))
  | _ => .undefined

/-- The jumps: modes 0 and 1, the condition in Rd; mode 6 is refused (R99, R101, R105 (b), (c)). -/
def decodeJump (m : Nat) (rd rx : BitVec 4) (w2 : Word) : Decoded :=
  match m with
  | 0 =>
    match Cond.ofField rd with
    | some cond => whenZero rx (.instr (.ofJump cond (.direct w2)))
    | none => .rejected .jumpConditionD
  | 1 =>
    match Cond.ofField rd with
    | some cond => .instr (.ofJump cond (.indexed w2 (Reg.ofField rx)))
    | none => .rejected .jumpConditionD
  | 6 => .rejected .jumpIndirect
  | _ => .undefined

/-- CALL: modes 0 and 1, Rd = 0h; mode 6 is refused (R99, R105). -/
def decodeCall (m : Nat) (rd rx : BitVec 4) (w2 : Word) : Decoded :=
  match m with
  | 0 => whenZero rd (whenZero rx (.instr (.ofCall (.direct w2))))
  | 1 => whenZero rd (.instr (.ofCall (.indexed w2 (Reg.ofField rx))))
  | 6 => .rejected .callIndirect
  | _ => .undefined

/-- IN and OUT: modes 0, 6, 7 (R99, R100). -/
def decodeIo (mk : IoEa → Instr) (m : Nat) (rx : BitVec 4) (w2 : Word) : Decoded :=
  match m with
  | 0 => whenZero rx (.instr (mk (.direct w2)))
  | 6 => .instr (mk (.indir (Reg.ofField rx)))
  | 7 => .instr (mk (.byteIndir (Reg.ofField rx)))
  | _ => .undefined

/-- PUSH (C0h) and POP (C4h): Rx = 0h (R99, R102, R188). -/
def decodeStack (m : Nat) (rd rx : BitVec 4) : Decoded :=
  match m with
  | 0 => whenZero rx (.instr (.push (Reg.ofField rd)))
  | 4 => whenZero rx (.instr (.pop (Reg.ofField rd)))
  | _ => .undefined

/-- RET (D000h) and RETI (D4F0h) (R99, R102, R103). -/
def decodeReturn (m : Nat) (rd rx : BitVec 4) : Decoded :=
  match m with
  | 0 => whenZero rd (whenZero rx (.instr .ret))
  | 4 => if rd = 15 then whenZero rx (.instr .reti) else .rejected .retiRd
  | _ => .undefined

/-- An instruction with no operand, whose OP's low bits are `low` (R99, R102). -/
def decodePlain (i : Instr) (low m : Nat) (rd rx : BitVec 4) : Decoded :=
  if m = low then whenZero rd (whenZero rx (.instr i)) else .undefined

/-- The instruction, or what else the first word is, from the first word and the second one, which only a two-word
instruction looks at. Rows of the opcode map R99 by `OP[7:3]`. -/
def decode (w w2 : Word) : Decoded :=
  let op := (opField w).toNat
  let m := op % 8
  let rd := rdField w
  let rx := rxField w
  match op / 8 with
  | 0 => decodePlain .no 0 m rd rx
  | 1 => decodeOperand (.ofLd (Reg.ofField rd)) m rx w2
  | 2 => decodeStore (Reg.ofField rd) m rx w2
  | 3 => decodeOperand (.ofAlu .add (Reg.ofField rd)) m rx w2
  | 4 => decodeOperand (.ofAlu .sub (Reg.ofField rd)) m rx w2
  | 5 => decodeOperand (.ofAlu .cmp (Reg.ofField rd)) m rx w2
  | 6 => decodeOperand (.ofAlu .and (Reg.ofField rd)) m rx w2
  | 7 => decodeOperand (.ofAlu .or (Reg.ofField rd)) m rx w2
  | 8 => decodeOperand (.ofAlu .xor (Reg.ofField rd)) m rx w2
  | 9 => decodeOperand (.ofAlu .adds (Reg.ofField rd)) m rx w2
  | 10 => decodeOperand (.ofAlu .mul (Reg.ofField rd)) m rx w2
  | 11 => decodeOperand (.ofAlu .div (Reg.ofField rd)) m rx w2
  | 12 => decodeOperand (.ofAlu .mod (Reg.ofField rd)) m rx w2
  | 16 => decodeOperand (.ofAlu .shla (Reg.ofField rd)) m rx w2
  | 17 => decodeOperand (.ofAlu .shll (Reg.ofField rd)) m rx w2
  | 18 => decodeOperand (.ofAlu .shra (Reg.ofField rd)) m rx w2
  | 19 => decodeOperand (.ofAlu .shrl (Reg.ofField rd)) m rx w2
  | 20 => decodeJump m rd rx w2
  | 21 => decodeCall m rd rx w2
  | 22 => decodeIo (.ofIn (Reg.ofField rd)) m rx w2
  | 23 => decodeIo (.ofOut (Reg.ofField rd)) m rx w2
  | 24 => decodeStack m rd rx
  | 26 => decodeReturn m rd rx
  | 30 => decodePlain .svc 0 m rd rx
  | 31 => decodePlain .halt 7 m rd rx
  | _ => .undefined

/-- The length rule R86: how many words the instruction with this first word has (1 also for a word that is none, which
has no length and whose second word is never fetched, 60_exceptions.md R206). -/
def wordCount (w : Word) : Nat :=
  let op := (opField w).toNat
  let row := op / 8
  let m := op % 8
  if row = 1 ∨ (3 ≤ row ∧ row ≤ 12) ∨ (16 ≤ row ∧ row ≤ 19) then if m ≤ 2 then 2 else 1
  else if row = 2 ∨ row = 20 ∨ row = 21 then if m ≤ 1 then 2 else 1
  else if row = 22 ∨ row = 23 then if m = 0 then 2 else 1
  else 1

/-- Decoding from bytes as they stand in memory, the byte at pc first (R80, 20_memory.md R51): the instruction and the
bytes after it; none when the bytes hold no instruction. -/
def decodeBytes : List Byte → Option (Instr × List Byte)
  | b0 :: b1 :: rest =>
    let w := joinBytes b0 b1
    if wordCount w = 2 then
      match rest with
      | b2 :: b3 :: rest' =>
        match decode w (joinBytes b2 b3) with
        | .instr i => some (i, rest')
        | .undefined => none
        | .rejected _ => none
      | _ => none
    else
      match decode w 0 with
      | .instr i => some (i, rest)
      | .undefined => none
      | .rejected _ => none
  | _ => none

/-- The bytes, in memory order, of an instruction given as one number in the opcode table's numbering: the first word
is bits 15 to 0, the second bits 31 to 16, and bits from `nbits` up are 0. -/
def tableWordBytes (nbits w : Nat) : List Byte :=
  let v := w % 2 ^ nbits
  let w1 : Word := BitVec.ofNat 16 v
  let w2 : Word := BitVec.ofNat 16 (v / 65536)
  [hiByte w1, loByte w1, hiByte w2, loByte w2]

/-- The instruction the decoder reads from an instruction's bits as the opcode table numbers them. -/
def decodeTableWord (nbits w : Nat) : Option Instr :=
  match decodeBytes (tableWordBytes nbits w) with
  | some (i, _) => some i
  | none => none

/-! ## The encoder -/

/-- The mode number of a memory form (R89). -/
def MemEa.mode : MemEa → Nat
  | .direct _ => 0
  | .indexed _ _ => 1
  | .fpRel _ => 3
  | .indir _ => 6
  | .byteIndir _ => 7

/-- Bits 3 to 0 of the first word of a memory form (R83, R89). -/
def MemEa.low : MemEa → BitVec 4
  | .direct _ => 0
  | .indexed _ rx => rx.toField
  | .fpRel d => dsp4ToField d
  | .indir rx => rx.toField
  | .byteIndir rx => rx.toField

/-- The second word of a memory form, if it has one (R83, R89). -/
def MemEa.second : MemEa → List Word
  | .direct d => [d]
  | .indexed d _ => [d]
  | .fpRel _ => []
  | .indir _ => []
  | .byteIndir _ => []

/-- The mode number of an operand form (R89). -/
def Operand.mode : Operand → Nat
  | .mem ea => ea.mode
  | .imm _ => 2
  | .reg _ => 4
  | .imm4 _ => 5

/-- Bits 3 to 0 of the first word of an operand form (R83, R89). -/
def Operand.low : Operand → BitVec 4
  | .mem ea => ea.low
  | .imm _ => 0
  | .reg rs => rs.toField
  | .imm4 v => imm4ToField v

/-- The second word of an operand form, if it has one (R83, R89). -/
def Operand.second : Operand → List Word
  | .mem ea => ea.second
  | .imm v => [v]
  | .reg _ => []
  | .imm4 _ => []

/-- A jump's or CALL's form as a memory form: the same encoding, with the address itself as the target (R160). -/
def JumpEa.toMemEa : JumpEa → MemEa
  | .direct d => .direct d
  | .indexed d rx => .indexed d rx

/-- IN's and OUT's form as a memory form: the same encoding, with the address in the I/O space (44_io.md R180). -/
def IoEa.toMemEa : IoEa → MemEa
  | .direct d => .direct d
  | .indir rx => .indir rx
  | .byteIndir rx => .byteIndir rx

/-- The base OP of a flag-changing instruction, its low three bits 000 (R99). -/
def AluOp.base : AluOp → Nat
  | .add => 0x18
  | .sub => 0x20
  | .cmp => 0x28
  | .and => 0x30
  | .or => 0x38
  | .xor => 0x40
  | .adds => 0x48
  | .mul => 0x50
  | .div => 0x58
  | .mod => 0x60
  | .shla => 0x80
  | .shll => 0x88
  | .shra => 0x90
  | .shrl => 0x98

/-- The words of an instruction with a memory form: `OP = base + m` (R82, R83). -/
def encodeEa (base : Nat) (rd : BitVec 4) (x : MemEa) : List Word :=
  firstWord (base + x.mode) rd x.low :: x.second

/-- The words of an instruction with an operand form: `OP = base + m` (R82, R83). -/
def encodeOperand (base : Nat) (rd : BitVec 4) (x : Operand) : List Word :=
  firstWord (base + x.mode) rd x.low :: x.second

/-- The words of a shape (R99 to R103). -/
def Form.encode : Form → List Word
  | .no => [firstWord 0x00 0 0]
  | .ld rd x => encodeOperand 0x08 rd.toField x
  | .st rd x => encodeEa 0x10 rd.toField x
  | .alu op rd x => encodeOperand op.base rd.toField x
  | .jump cond x => encodeEa 0xA0 cond.toField x.toMemEa
  | .call x => encodeEa 0xA8 0 x.toMemEa
  | .inp rd x => encodeEa 0xB0 rd.toField x.toMemEa
  | .out rd x => encodeEa 0xB8 rd.toField x.toMemEa
  | .push rd => [firstWord 0xC0 rd.toField 0]
  | .pop rd => [firstWord 0xC4 rd.toField 0]
  | .ret => [firstWord 0xD0 0 0]
  | .reti => [firstWord 0xD4 15 0]
  | .svc => [firstWord 0xF0 0 0]
  | .halt => [firstWord 0xFF 0 0]

/-- The words of a well-formed instruction, the first word first (R80). -/
def encode (i : Instr) : List Word := i.form.encode

/-- The bytes of a word in memory order (20_memory.md R51). -/
def wordBytes (w : Word) : List Byte := [hiByte w, loByte w]

/-- The bytes of an instruction as they stand in memory. -/
def encodeBytes (i : Instr) : List Byte := (encode i).flatMap wordBytes

end Sys2Proof
end

