-- ==== Sys2Proof/Config.lean ====
section
/-! DEFINITION. What the machine is configured with: the parameters of 00_scope.md R7, as chosen values where the spec
recommends one and as constants without a body where the value is free, and the types these constants range over. -/

namespace Sys2Proof

/-- Which of the two causes a memory protection violation has (20_memory.md R64, 60_exceptions.md R203). -/
inductive ViolationCause where
  /-- R = 0: a word access to an odd address. -/
  | oddAddress
  /-- R = 1: an access a page's R, W, X permissions do not allow; only with paging on, where the model refuses. -/
  | rwx
deriving DecidableEq, Repr

/-- The six exceptions (60_exceptions.md R202 to R208). -/
inductive Exc where
  | memoryViolation (cause : ViolationCause)
  | zeroDivide
  | privilegeViolation
  | undefinedInstruction
  | supervisorCall
  | tlbMiss (page : Byte)
deriving DecidableEq, Repr

/-- One access to the I/O space, as the devices see it (60_exceptions.md R236: a write "is recorded as an event"; reads
are recorded too, since a read can change device state, 20_memory.md R57). -/
inductive IoEvent where
  | read (w : Width) (addr : Word)
  | write (w : Width) (addr : Word) (value : Word)
deriving DecidableEq, Repr

/-- The five positions of the mode port 1Fh (60_exceptions.md R235). -/
inductive ModeSwitch where
  | tec
  | tac
  | demo1
  | demo2
  | rn4020FactoryReset
deriving DecidableEq, Repr, Inhabited

namespace Config

/-- `RESET_PC` of R7, at its recommended value. DESIGN CHOICE, unsafe (notes/assumptions/3.md). -/
def resetPc : Word := 0xE000

/-- The address range of `IPL_ROM` of R7: its first address and the first one after it, which D33 keeps open. Free value,
safe (notes/assumptions/4.md). -/
opaque iplRange : Nat × Nat

/-- First address of the IPL ROM, not above `RESET_PC`: execution starts inside the ROM (70_reset_and_hazards.md R261). -/
def romBase : Nat := min iplRange.1 resetPc.toNat

/-- First address after the IPL ROM, above `RESET_PC` (70_reset_and_hazards.md R261). -/
def romLimit : Nat := max iplRange.2 (resetPc.toNat + 1)

/-- The IPL ROM's bytes, by memory address: "opaque to the model" (20_memory.md R61). Free value, safe
(notes/assumptions/4.md). -/
opaque iplRom : Nat → Byte

/-- C after the operations whose carry is open: `FLAG_CV` of R7 (D14, U12). Free value, safe
(notes/assumptions/18.md). -/
opaque flagC : AluOp → Word → Word → Bool

/-- V after the operations whose overflow is open: `FLAG_CV` of R7 (D14, U12). Free value, safe
(notes/assumptions/18.md). -/
opaque flagV : AluOp → Word → Word → Bool

/-- `DIV_FN` of R7: the quotient when an operand exceeds 7FFFh (D16, U13). Free value, safe
(notes/assumptions/20.md). -/
opaque divFn : Word → Word → Word

/-- `MOD_FN` of R7: the remainder when an operand exceeds 7FFFh (D16, U13). Free value, safe
(notes/assumptions/20.md). -/
opaque modFn : Word → Word → Word

/-- `SHIFT_FN` of R7: the result of a shift by 16 or more (D18, U14); SHLA asks for SHLL's, since the two give the same
result (D19). Free value, safe (notes/assumptions/22.md). -/
opaque shiftFn : AluOp → Word → Word → Word

/-- `EXC_SAVED_PC` of R7: whether an exception other than SVC saves the address after its instruction (true) or the
instruction's own (false), drawn afresh each time (D26, U15). Free value, safe (notes/assumptions/29.md). -/
opaque savesNext : Exc → Nat → Bool

/-- `IO_READ` of R7: the byte a device puts at an I/O address, from the accesses so far and the step's draw (D36, U17).
Free value, safe (notes/assumptions/36.md). -/
opaque ioRead : List IoEvent → Nat → Nat → Byte

/-- The position of the mode switch, one of five (60_exceptions.md R235, R236). Free value, safe
(notes/assumptions/36.md). -/
opaque modeSwitch : List IoEvent → Nat → ModeSwitch

/-- The sources, by number k of 60_exceptions.md R200, that request an interrupt at a sampling point (R212, R236, U17).
Free value, safe (notes/assumptions/31.md). -/
opaque irqRequests : List IoEvent → Nat → BitVec 10

/-- `IRQ_PRIORITY` of R7: which source is looked at first among the requesting ones (R213, D29, U16). Free value, safe
(notes/assumptions/31.md). -/
opaque irqPriority : Nat → BitVec 10 → Fin 10

/-- What the micro SD controller writes to memory between two instructions once a transfer was started (20_memory.md
R72). Free value, safe (notes/assumptions/40.md). -/
opaque sdWrites : List IoEvent → Nat → List (Word × Byte)

end Config

end Sys2Proof
end

