-- ==== Sys2Proof/Machine/State.lean ====
section
/-! DEFINITION. The machine's state as plain data (10_state.md), the state after reset, and the reasons a step can stop. -/

namespace Sys2Proof.Machine

/-- FLAG, the seven bits that hold state (10_state.md R29): interrupt enable, privileged mode, I/O privileged mode,
overflow, carry, sign, zero. Its other nine bits "hold no state". -/
structure Flags where
  e : Bool
  p : Bool
  i : Bool
  v : Bool
  c : Bool
  s : Bool
  z : Bool
deriving DecidableEq, Repr

/-- A byte-addressed store: address and byte pairs, addresses rising, no pair whose byte is 00h, which is what an
unlisted address reads as (`Memory.wf` of Machine/Ops.lean). -/
abbrev Memory := List Host.Cell

/-- The MMU's registers behind the ports F0h to F7h (10_state.md R41, 20_memory.md R61 to R67). -/
structure Mmu where
  /-- Port F0h bit 0: the IPL ROM is detached. -/
  iplDetached : Bool
  /-- Port F2h bit 0. -/
  relocation : Bool
  /-- Port F2h bit 1. -/
  paging : Bool
  /-- The base register, port F4h (Out). -/
  base : Word
  /-- The limit register, port F6h (Out). -/
  limit : Word
  /-- The TLB-entry holding register, port F4h (Out). -/
  tlbHold : Word
  /-- The eight TLB entries: page number in bits 23 to 16, the held value in bits 15 to 0. -/
  tlb : Vector (BitVec 24) 8
  /-- The cause bit R of the last memory protection violation, port F4h (In). -/
  cause : Bool
  /-- The page number of the last TLB miss, port F7h (In). -/
  missPage : Byte
deriving DecidableEq, Repr

/-- What the CPU has put into the devices (60_exceptions.md R230 to R239, R253). -/
structure Io where
  /-- The output registers, by I/O byte address: the bits the port's layout draws, as last written. -/
  latch : Memory
  /-- The interrupt sources, by number k of R200, whose enable bit has been set to 1 since reset (R236). -/
  irqEnabled : BitVec 10
  /-- A micro SD transfer has been started since reset (20_memory.md R72). -/
  usdStarted : Bool
  /-- The I/O accesses since reset, the newest first (R236). -/
  history : List IoEvent
deriving DecidableEq, Repr

/-- The whole machine (10_state.md R20). -/
structure State where
  /-- G0 to G11 (R21). -/
  g : Vector Word 12
  /-- FP, also G12 (R22). -/
  fp : Word
  /-- The system stack pointer (R23). -/
  ssp : Word
  /-- The user stack pointer (R23). -/
  usp : Word
  /-- The program counter (R26). -/
  pc : Word
  /-- FLAG (R29). -/
  flag : Flags
  /-- The CPU has executed HALT (46_system.md R196). -/
  halted : Bool
  /-- The RAM of the memory space (R37). -/
  mem : Memory
  /-- The MMU's registers (R41). -/
  mmu : Mmu
  /-- The device side of the I/O space (R38, R20). -/
  io : Io
  /-- The model's own: how many steps were taken, so that the free values of each step are fresh
  (notes/assumptions/36.md). -/
  draws : Nat
deriving DecidableEq, Repr

/-- Why the machine stops with a fault. -/
inductive Fault where
  /-- Raised by a step from the halted state, which "is terminal and has no step" (46_system.md R196, U20). Safe: the
  hardware may be restarted from outside, and the model says nothing of that. -/
  | halted
deriving DecidableEq, Repr

/-- Why the model gives a step no meaning. Each one is safe: the hardware does something the spec does not say. -/
inductive Refusal where
  /-- Raised by `exec` for an instruction that has no meaning yet; no arm uses it. Safe. -/
  | notModelled (mnemonic : String)
  /-- Raised by the fetch: the first word is a refused encoding (30_encoding.md R105, U1 to U4). Safe. -/
  | encoding (why : Reject)
  /-- Raised by an arithmetic, logic or shift instruction with FLAG as its destination (41_arith_logic.md R130, U5).
  Safe. -/
  | flagDestination
  /-- Raised by PUSH or POP of the stack pointer in use (45_stack_return.md R186, R187, U6). Safe. -/
  | stackPointerOperand
  /-- Raised by IN or OUT with an address above 00FFh (44_io.md R180, U7). Safe. -/
  | ioAddressAboveFF
  /-- Raised by a 16-bit IN or OUT at an odd address (44_io.md R180, U7). Safe. -/
  | ioWordAtOddAddress
  /-- Raised by trap entry when it raises an exception itself (60_exceptions.md R219, U8). Safe. -/
  | trapEntryFault
  /-- Raised by a memory access, and by a step, with relocation or paging enabled (20_memory.md R62, U9). Safe. -/
  | mmuEnabled
  /-- Raised by a write to an address where the IPL ROM is attached (20_memory.md R61, U10). Safe. -/
  | romWrite
  /-- Raised by writing 0 to the IPL detach bit when it is 1 (20_memory.md R61, U10). Safe. -/
  | romReattach
deriving DecidableEq, Repr

/-- The outcome of an instruction or a step. -/
abbrev Result := Host.Outcome State Fault Refusal

/-- Why a part of an instruction does not complete: an exception to take, or a refusal. -/
inductive Stop where
  | exc (k : Exc)
  | refuse (r : Refusal)
deriving DecidableEq, Repr

/-! ## Updates -/

def State.setG (s : State) (n : Fin 12) (v : Word) : State := { s with g := s.g.set n.val v n.isLt }
def State.setFp (s : State) (v : Word) : State := { s with fp := v }
def State.setSsp (s : State) (v : Word) : State := { s with ssp := v }
def State.setUsp (s : State) (v : Word) : State := { s with usp := v }
def State.setPc (s : State) (v : Word) : State := { s with pc := v }
def State.setFlag (s : State) (f : Flags) : State := { s with flag := f }
def State.setHalted (s : State) (b : Bool) : State := { s with halted := b }
def State.setMem (s : State) (m : Memory) : State := { s with mem := m }
def State.setMmu (s : State) (m : Mmu) : State := { s with mmu := m }
def State.setIo (s : State) (d : Io) : State := { s with io := d }
def State.setDraws (s : State) (n : Nat) : State := { s with draws := n }

/-! ## Reset -/

/-- FLAG after reset: `RESET_FLAG` at its recommended value 0040h (10_state.md R44). DESIGN CHOICE, unsafe
(notes/assumptions/3.md). -/
def Flags.reset : Flags :=
  { e := false, p := true, i := false, v := false, c := false, s := false, z := false }

/-- The MMU after reset: the ROM mapped (10_state.md R43, R44), `MMU_RESET` at its recommended value 0, and 0 for what
the spec leaves unspecified. DESIGN CHOICE, unsafe (notes/assumptions/5.md). -/
def Mmu.reset : Mmu :=
  { iplDetached := false, relocation := false, paging := false, base := 0, limit := 0, tlbHold := 0,
    tlb := Vector.replicate 8 0, cause := false, missPage := 0 }

/-- The devices after reset: RN4020-Cmd (port 2Dh) is 0001 (10_state.md R43); the other output registers 0, as R44
recommends for the control bits. DESIGN CHOICE, unsafe (notes/assumptions/7.md). -/
def Io.reset : Io :=
  { latch := [(0x2D, 1)], irqEnabled := 0, usdStarted := false, history := [] }

/-- The machine right after reset (10_state.md R44, 70_reset_and_hazards.md R260). The registers' zeros are the model's
choice, unsafe (notes/assumptions/2.md). -/
def State.reset : State :=
  { g := Vector.replicate 12 0, fp := 0, ssp := 0, usp := 0, pc := Config.resetPc, flag := Flags.reset,
    halted := false, mem := [], mmu := Mmu.reset, io := Io.reset, draws := 0 }

end Sys2Proof.Machine
end

