-- ==== Sys2Proof/Machine/Flags.lean ====
section
/-! DEFINITION. FLAG as a word, the write filter, the jump conditions (10_state.md R29 to R36, 43_jump_call.md). -/

namespace Sys2Proof.Machine

/-- A single bit at a position of a word. -/
def bitAt (b : Bool) (k : Nat) : Word := if b then 1 <<< k else 0

/-- FLAG as a register value, `0000 0000 EPI0 VCSZ` (10_state.md R29). -/
def Flags.toWord (f : Flags) : Word :=
  bitAt f.e 7 ||| bitAt f.p 6 ||| bitAt f.i 5 ||| bitAt f.v 3 ||| bitAt f.c 2 ||| bitAt f.s 1 ||| bitAt f.z 0

/-- The seven bits of a word that FLAG holds: `v and 00EFh` (10_state.md R33). -/
def Flags.ofWord (v : Word) : Flags :=
  { e := v.getLsbD 7, p := v.getLsbD 6, i := v.getLsbD 5, v := v.getLsbD 3, c := v.getLsbD 2, s := v.getLsbD 1,
    z := v.getLsbD 0 }

/-- A write of a word to FLAG through the filter of 10_state.md R33: E, P and I change only when P = 1 before the
write. -/
def Flags.write (f : Flags) (v : Word) : Flags :=
  let n := Flags.ofWord v
  if f.p then n else { f with v := n.v, c := n.c, s := n.s, z := n.z }

/-- The jump conditions, as 43_jump_call.md R161 to R175 write them. -/
def condHolds (cond : Cond) (f : Flags) : Bool :=
  match cond with
  | .z => f.z
  | .c => f.c
  | .m => f.s
  | .o => f.v
  | .gt => !(f.z || (f.s ^^ f.v))
  | .ge => !(f.s ^^ f.v)
  | .le => f.z || (f.s ^^ f.v)
  | .lt => f.s ^^ f.v
  | .nz => !f.z
  | .nc => !f.c
  | .nm => !f.s
  | .no => !f.v
  | .hi => !(f.z || f.c)
  | .ls => f.z || f.c
  | .always => true

end Sys2Proof.Machine
end

