-- ==== Sys2Proof/Machine/Ops.lean ====
section
/-! DEFINITION. The shared operations over memory, registers and the stack, taking an exception and returning from
one. -/

namespace Sys2Proof.Machine

/-! ## The byte store -/

/-- The byte at an address; an unlisted one reads as 00h. DESIGN CHOICE, unsafe (notes/assumptions/1.md). -/
def Memory.read : Memory → Nat → Byte
  | [], _ => 0
  | (k, b) :: rest, a => if k = a then b else Memory.read rest a

/-- Puts a pair before the first one of a higher address. -/
def Memory.insert (a : Nat) (v : Byte) : Memory → Memory
  | [] => [(a, v)]
  | (k, b) :: rest => if a < k then (a, v) :: (k, b) :: rest else (k, b) :: Memory.insert a v rest

/-- Takes an address's pairs out. -/
def Memory.erase (a : Nat) : Memory → Memory
  | [] => []
  | (k, b) :: rest => if k = a then Memory.erase a rest else (k, b) :: Memory.erase a rest

/-- A write of one byte; writing 00h unlists the address. -/
def Memory.write (m : Memory) (a : Nat) (v : Byte) : Memory :=
  if v = 0 then Memory.erase a m else Memory.insert a v (Memory.erase a m)

/-- The canonical form of a store whose addresses are below `size`: addresses strictly rising from `low` on, no listed
byte 00h. -/
def Memory.wfFrom (size : Nat) : Nat → Memory → Bool
  | _, [] => true
  | low, (k, b) :: rest => decide (low ≤ k) && decide (k < size) && (b != 0) && Memory.wfFrom size (k + 1) rest

/-- The canonical form (equal stores are equal lists). -/
def Memory.wf (size : Nat) (m : Memory) : Bool := Memory.wfFrom size 0 m

/-! ## Memory accesses -/

/-- The IPL ROM is seen at an address (20_memory.md R61). -/
def romAt (s : State) (pa : Nat) : Bool :=
  !s.mmu.iplDetached && decide (Config.romBase ≤ pa) && decide (pa < Config.romLimit)

/-- A byte of an access of the given width at an address lies in the attached IPL ROM (20_memory.md R61). -/
def romTouched (w : Width) (pa : Nat) (s : State) : Bool := romAt s pa || (decide (w = .word) && romAt s (pa + 1))

/-- The byte of the memory space at an address: the ROM's where it is attached, else the RAM's (20_memory.md R61). -/
def byteAt (s : State) (pa : Nat) : Byte :=
  if romAt s pa then Config.iplRom pa else Memory.read s.mem pa

/-- Relocation or paging is enabled (20_memory.md R62, R63). -/
def mmuOn (s : State) : Bool := s.mmu.relocation || s.mmu.paging

/-- `Translate` of 20_memory.md R62: the identity with the MMU off, refused with it on. -/
def translate (s : State) (a : Word) : Except Stop Nat :=
  if mmuOn s then .error (.refuse .mmuEnabled) else .ok a.toNat

/-- The address of a word access is odd (20_memory.md R54). -/
def isOdd (a : Word) : Bool := a.getLsbD 0

/-- The violation a word access to an odd address raises (20_memory.md R54). -/
def oddAccess : Stop := .exc (.memoryViolation .oddAddress)

/-- The value of a read of the given width at an address: the byte at the even address is the more significant
(20_memory.md R51); a byte arrives zero-extended (R53). -/
def loadBytes (w : Width) (pa : Nat) (s : State) : Word :=
  match w with
  | .word => joinBytes (byteAt s pa) (byteAt s (pa + 1))
  | .byte => (byteAt s pa).setWidth 16

/-- `MemRead` of 20_memory.md R52, R53. -/
def memRead (w : Width) (a : Word) (s : State) : Except Stop Word :=
  if w = .word ∧ isOdd a = true then .error oddAccess
  else
    match translate s a with
    | .error e => .error e
    | .ok pa => .ok (loadBytes w pa s)

/-- The RAM after a write of the given width at an address that is not ROM: the more significant byte at the even
address (20_memory.md R51), or bits 7 to 0 only (R53). -/
def storeBytes (w : Width) (pa : Nat) (v : Word) (m : Memory) : Memory :=
  match w with
  | .word => Memory.write (Memory.write m pa (hiByte v)) (pa + 1) (loByte v)
  | .byte => Memory.write m pa (loByte v)

/-- `MemWrite` of 20_memory.md R52, R53; a write that reaches the attached IPL ROM is refused (R61). -/
def memWrite (w : Width) (a : Word) (v : Word) (s : State) : Except Stop State :=
  if w = .word ∧ isOdd a = true then .error oddAccess
  else
    match translate s a with
    | .error e => .error e
    | .ok pa => if romTouched w pa s then .error (.refuse .romWrite) else .ok (s.setMem (storeBytes w pa v s.mem))

/-! ## Registers -/

/-- `x[i]` of 10_state.md R24. -/
def readReg (r : Reg) (s : State) : Word :=
  match r with
  | .g n => s.g[n]
  | .fp => s.fp
  | .sp => if s.flag.p then s.ssp else s.usp
  | .usp => s.usp
  | .flag => s.flag.toWord

/-- `x[i] <- v` of 10_state.md R25; a write to FLAG goes through the filter of R33. -/
def writeReg (r : Reg) (v : Word) (s : State) : State :=
  match r with
  | .g n => s.setG n v
  | .fp => s.setFp v
  | .sp => if s.flag.p then s.setSsp v else s.setUsp v
  | .usp => s.setUsp v
  | .flag => s.setFlag (s.flag.write v)

/-! ## The stack -/

/-- `Push` of 45_stack_return.md R185; SP moves only if the write raises nothing. -/
def push (v : Word) (s : State) : Except Stop State :=
  match memWrite .word (readReg .sp s - 2) v s with
  | .error e => .error e
  | .ok t => .ok (writeReg .sp (readReg .sp s - 2) t)

/-- `Pop` of 45_stack_return.md R185. -/
def pop (s : State) : Except Stop (Word × State) :=
  match memRead .word (readReg .sp s) s with
  | .error e => .error e
  | .ok v => .ok (v, writeReg .sp (readReg .sp s + 2) s)

/-! ## Taking an exception or an interrupt, and returning -/

/-- The address of word `k` of the vector table (60_exceptions.md R200). -/
def vectorAddr (k : Nat) : Word := 0xFFE0 + BitVec.ofNat 16 (2 * k)

/-- The exception's number in the vector table (60_exceptions.md R200, R203 to R208). -/
def excNumber : Exc → Nat
  | .memoryViolation _ => 10
  | .zeroDivide => 11
  | .privilegeViolation => 12
  | .undefinedInstruction => 13
  | .supervisorCall => 14
  | .tlbMiss _ => 15

/-- What the exception records in the MMU's registers: the violation's cause bit, the missing page (60_exceptions.md
R202, R203, R208). -/
def recordCause (k : Exc) (s : State) : State :=
  match k with
  | .memoryViolation c => s.setMmu { s.mmu with cause := decide (c = .rwx) }
  | .tlbMiss page => s.setMmu { s.mmu with missPage := page }
  | .zeroDivide => s
  | .privilegeViolation => s
  | .undefinedInstruction => s
  | .supervisorCall => s

/-- The saved PC of an exception (60_exceptions.md R217): the address after the instruction for SVC, one of the two
addresses, freely, for the others. -/
def savedPc (k : Exc) (next : Word) (s : State) : Word :=
  match k with
  | .supervisorCall => next
  | .memoryViolation c => if Config.savesNext (.memoryViolation c) s.draws then next else s.pc
  | .zeroDivide => if Config.savesNext .zeroDivide s.draws then next else s.pc
  | .privilegeViolation => if Config.savesNext .privilegeViolation s.draws then next else s.pc
  | .undefinedInstruction => if Config.savesNext .undefinedInstruction s.draws then next else s.pc
  | .tlbMiss page => if Config.savesNext (.tlbMiss page) s.draws then next else s.pc

/-- FLAG as trap entry leaves it: P = 1, E = 0, the rest as it was (60_exceptions.md R215). -/
def Flags.entered (f : Flags) : Flags := { f with p := true, e := false }

/-- What stops trap entry: an exception raised by it has no meaning (60_exceptions.md R219); a refusal stays itself. -/
def trapStop : Stop → Refusal
  | .exc _ => .trapEntryFault
  | .refuse r => r

/-- Trap entry (60_exceptions.md R215, R216): FLAG changes, the saved PC and then the old FLAG go on the system stack,
and PC is loaded from the vector, read after the pushes. -/
def trapEntry (vec spc : Word) (s : State) : Except Refusal State :=
  match push spc (s.setFlag s.flag.entered) with
  | .error e => .error (trapStop e)
  | .ok s1 =>
    match push s.flag.toWord s1 with
    | .error e => .error (trapStop e)
    | .ok s2 =>
      match memRead .word vec s2 with
      | .error e => .error (trapStop e)
      | .ok handler => .ok (s2.setPc handler)

/-- Trap entry as an outcome. -/
def enter (vec spc : Word) (s : State) : Result :=
  match trapEntry vec spc s with
  | .error r => .refused r
  | .ok t => .next t

/-- Taking an exception raised by the instruction at pc, whose successor in memory is at `next` (60_exceptions.md R203
to R208, R215, R217). -/
def takeException (k : Exc) (next : Word) (s : State) : Result :=
  enter (vectorAddr (excNumber k)) (savedPc k next s) (recordCause k s)

/-- Taking an interrupt of device source `k` before the instruction at pc (60_exceptions.md R211, R215). -/
def takeInterrupt (k : Fin 10) (s : State) : Result := enter (vectorAddr k.val) s.pc s

/-- The outcome of an instruction whose successor in memory is at `next`: its final state, or the exception it raised
taken from the state it started in (40_no_load_store.md R120 (c)), or a refusal. -/
def settle (s : State) (next : Word) (r : Except Stop State) : Result :=
  match r with
  | .ok t => .next t
  | .error (.exc k) => takeException k next s
  | .error (.refuse why) => .refused why

/-- RETI's effect (45_stack_return.md R191): both words from the stack in use at the start, FLAG through the filter of
10_state.md R33. -/
def reti (s : State) : Except Stop State :=
  match pop s with
  | .error e => .error e
  | .ok (f, s1) =>
    match pop s1 with
    | .error e => .error e
    | .ok (t, s2) => .ok ((s2.setFlag (s.flag.write f)).setPc t)

/-- RETI, return from a trap (45_stack_return.md R191, 60_exceptions.md R218). -/
def returnFromTrap (s : State) : Result := settle s (s.pc + 2) (reti s)

/-- A reset of a running machine: everything as after `State.reset`, but the RN4020-RAM register (port 2Fh), which
reset does not affect (10_state.md R43, 60_exceptions.md R237). That the record of accesses starts empty, and that the
model's own draw counter goes on instead, so that the free values after a reset are fresh, is the model's: DESIGN
CHOICE, safe (notes/assumptions/49.md). -/
def State.warmReset (s : State) : State :=
  (State.reset.setIo { Io.reset with latch := Memory.write Io.reset.latch 0x2F (Memory.read s.io.latch 0x2F) }).setDraws
    (s.draws + 1)

end Sys2Proof.Machine
end

