-- ==== Sys2Proof/Machine/Agents.lean ====
section
/-! DEFINITION. What happens between two instructions: device interrupts (60_exceptions.md R211 to R213, R236) and the
micro SD controller's writes (20_memory.md R72). -/

namespace Sys2Proof.Machine

/-- The device source whose interrupt is accepted when `requests` are pending and `first` is looked at first: none with
E = 0, else one among the sources that request and have ever been enabled (60_exceptions.md R211, R213, R236). -/
def acceptAmong (requests : BitVec 10) (first : Fin 10) (s : State) : Option (Fin 10) :=
  if s.flag.e then
    if (requests &&& s.io.irqEnabled).getLsbD first.val then some first
    else (List.finRange 10).find? fun j => (requests &&& s.io.irqEnabled).getLsbD j.val
  else none

/-- The device source whose interrupt is accepted before the next instruction, if any: the oracle says which sources
request, `IRQ_PRIORITY` which one is looked at first (60_exceptions.md R211, R213, R236). None is when none was ever
enabled. -/
def acceptedInterrupt (s : State) : Option (Fin 10) :=
  if s.flag.e && (s.io.irqEnabled != 0) then
    acceptAmong (Config.irqRequests s.io.history s.draws)
      (Config.irqPriority s.draws (Config.irqRequests s.io.history s.draws &&& s.io.irqEnabled)) s
  else none

/-- The micro SD controller's writes of this step, none before a transfer was started (20_memory.md R72). -/
def busWrites (s : State) : State :=
  if s.io.usdStarted then
    s.setMem ((Config.sdWrites s.io.history s.draws).foldl (fun m c => Memory.write m c.1.toNat c.2) s.mem)
  else s

/-- The end of a step: the other bus agent's writes, and the next step's draw. -/
def endStep (s : State) : State := (busWrites s).setDraws (s.draws + 1)

/-- The end of a step, when there is a next state. -/
def finishStep (r : Result) : Result :=
  match r with
  | .next t => .next (endStep t)
  | .fault f => .fault f
  | .refused why => .refused why

end Sys2Proof.Machine
end

