-- ==== Sys2Proof/Machine/Operands.lean ====
section
/-! DEFINITION. The operand forms: effective address, access width, operand value, length (30_encoding.md R86 to
R98). -/

namespace Sys2Proof.Machine

/-- The effective address of a memory form (R90 to R93, R97, R98); sums wrap modulo 65536. -/
def memAddr (x : MemEa) (s : State) : Word :=
  match x with
  | .direct dsp => dsp
  | .indexed dsp rx => dsp + readReg rx s
  | .fpRel dsp4 => s.fp + BitVec.ofInt 16 dsp4
  | .indir rx => readReg rx s
  | .byteIndir rx => readReg rx s

/-- The access width of a memory form: a byte for mode 7, else a word (R90, 20_memory.md R50). -/
def memWidth : MemEa → Width
  | .direct _ => .word
  | .indexed _ _ => .word
  | .fpRel _ => .word
  | .indir _ => .word
  | .byteIndir _ => .byte

/-- The length in bytes of an instruction with a memory form (R86). -/
def memBytes : MemEa → Word
  | .direct _ => 4
  | .indexed _ _ => 4
  | .fpRel _ => 2
  | .indir _ => 2
  | .byteIndir _ => 2

/-- The length in bytes of an instruction with an operand form (R86). -/
def operandBytes : Operand → Word
  | .mem ea => memBytes ea
  | .imm _ => 4
  | .reg _ => 2
  | .imm4 _ => 2

/-- The operand value `opv` (R90 to R98). -/
def operandValue (x : Operand) (s : State) : Except Stop Word :=
  match x with
  | .mem ea => memRead (memWidth ea) (memAddr ea s) s
  | .imm v => .ok v
  | .reg rs => .ok (readReg rs s)
  | .imm4 v => .ok (BitVec.ofInt 16 v)

/-- The target of a jump or CALL (43_jump_call.md R160, R176). -/
def jumpTarget (x : JumpEa) (s : State) : Word :=
  match x with
  | .direct dsp => dsp
  | .indexed dsp rx => dsp + readReg rx s

/-- The I/O address of IN or OUT (44_io.md R180 to R182). -/
def ioAddr (x : IoEa) (s : State) : Word :=
  match x with
  | .direct dsp => dsp
  | .indir rx => readReg rx s
  | .byteIndir rx => readReg rx s

/-- The access width of IN or OUT (44_io.md R180). -/
def ioWidth : IoEa → Width
  | .direct _ => .word
  | .indir _ => .word
  | .byteIndir _ => .byte

/-- The length in bytes of IN or OUT (R86). -/
def ioBytes : IoEa → Word
  | .direct _ => 4
  | .indir _ => 2
  | .byteIndir _ => 2

end Sys2Proof.Machine
end

