-- ==== Sys2Proof/Machine/Alu.lean ====
section
/-! DEFINITION. The results and the flags of the fourteen flag-changing instructions, and their shared effect
(41_arith_logic.md, 42_shift.md). -/

namespace Sys2Proof.Machine

/-- Both operands lie where signed and unsigned division agree, 0 to 7FFFh (41_arith_logic.md R139, R140). -/
def divisionFixed (a b : Word) : Bool := decide (a.toNat ≤ 0x7FFF) && decide (b.toNat ≤ 0x7FFF)

/-- A shift count the spec gives a result for (42_shift.md R150). -/
def countFixed (cnt : Word) : Bool := decide (cnt.toNat ≤ 15)

/-- The 16-bit result `r` of `a` (Rd) and `b` (the operand value), R131 to R140 and R150 to R154; for DIV and MOD with a
divisor other than 0. Where the spec leaves it open it is a free value of Config, for SHLA and SHLL the same one (R151,
D19). -/
def aluResult (op : AluOp) (a b : Word) : Word :=
  match op with
  | .add => a + b
  | .sub => a - b
  | .cmp => a - b
  | .and => a &&& b
  | .or => a ||| b
  | .xor => a ^^^ b
  | .adds => a + 2 * b
  | .mul => a * b
  | .div => if divisionFixed a b then a / b else Config.divFn a b
  | .mod => if divisionFixed a b then a % b else Config.modFn a b
  | .shla => if countFixed b then a <<< b.toNat else Config.shiftFn .shll a b
  | .shll => if countFixed b then a <<< b.toNat else Config.shiftFn .shll a b
  | .shra => if countFixed b then a.sshiftRight b.toNat else Config.shiftFn .shra a b
  | .shrl => if countFixed b then a >>> b.toNat else Config.shiftFn .shrl a b

/-- C: the carry out of bit 15 for ADD (R131), the borrow for SUB and CMP (R132, R133), free for the others
(`FLAG_CV`, R134 to R140, R150). -/
def aluCarry (op : AluOp) (a b : Word) : Bool :=
  match op with
  | .add => decide (65536 ≤ a.toNat + b.toNat)
  | .sub => decide (a.toNat < b.toNat)
  | .cmp => decide (a.toNat < b.toNat)
  | .and => Config.flagC .and a b
  | .or => Config.flagC .or a b
  | .xor => Config.flagC .xor a b
  | .adds => Config.flagC .adds a b
  | .mul => Config.flagC .mul a b
  | .div => Config.flagC .div a b
  | .mod => Config.flagC .mod a b
  | .shla => Config.flagC .shla a b
  | .shll => Config.flagC .shll a b
  | .shra => Config.flagC .shra a b
  | .shrl => Config.flagC .shrl a b

/-- V: the signed overflow for ADD (R131), SUB and CMP (R132, R133), free for the others (`FLAG_CV`). -/
def aluOverflow (op : AluOp) (a b : Word) : Bool :=
  match op with
  | .add => (a.msb == b.msb) && ((a + b).msb != a.msb)
  | .sub => (a.msb != b.msb) && ((a - b).msb != a.msb)
  | .cmp => (a.msb != b.msb) && ((a - b).msb != a.msb)
  | .and => Config.flagV .and a b
  | .or => Config.flagV .or a b
  | .xor => Config.flagV .xor a b
  | .adds => Config.flagV .adds a b
  | .mul => Config.flagV .mul a b
  | .div => Config.flagV .div a b
  | .mod => Config.flagV .mod a b
  | .shla => Config.flagV .shla a b
  | .shll => Config.flagV .shll a b
  | .shra => Config.flagV .shra a b
  | .shrl => Config.flagV .shrl a b

/-- FLAG after a flag-changing instruction (10_state.md R34): Z and S from the result, C and V by the instruction's own
rule, E, P and I unchanged (R130). -/
def aluFlags (op : AluOp) (a b : Word) (f : Flags) : Flags :=
  { f with v := aluOverflow op a b, c := aluCarry op a b, s := (aluResult op a b).msb,
           z := aluResult op a b == 0 }

/-- CMP writes no register (R133); all others write Rd (R130). -/
def writesRd : AluOp → Bool
  | .cmp => false
  | .add => true
  | .sub => true
  | .and => true
  | .or => true
  | .xor => true
  | .adds => true
  | .mul => true
  | .div => true
  | .mod => true
  | .shla => true
  | .shll => true
  | .shra => true
  | .shrl => true

/-- DIV and MOD, which raise ZeroDivide on the operand 0 (R139, R140). -/
def divides : AluOp → Bool
  | .div => true
  | .mod => true
  | .add => false
  | .sub => false
  | .cmp => false
  | .and => false
  | .or => false
  | .xor => false
  | .adds => false
  | .mul => false
  | .shla => false
  | .shll => false
  | .shra => false
  | .shrl => false

/-- The state after the operation on the operand value `b`: Rd (but for CMP) and the flags (R130, R150). -/
def aluApply (op : AluOp) (rd : Reg) (b : Word) (s : State) : State :=
  (if writesRd op then writeReg rd (aluResult op (readReg rd s) b) s else s).setFlag (aluFlags op (readReg rd s) b s.flag)

/-- The skeleton of R130 and R150; FLAG as a destination is refused (U5). -/
def aluBody (op : AluOp) (rd : Reg) (x : Operand) (s : State) : Except Stop State :=
  if writesRd op = true ∧ rd = .flag then .error (.refuse .flagDestination)
  else
    match operandValue x s with
    | .error e => .error e
    | .ok b =>
      if divides op = true ∧ b = 0 then .error (.exc .zeroDivide)
      else .ok ((aluApply op rd b s).setPc (s.pc + operandBytes x))

/-- A flag-changing instruction as an outcome. -/
def alu (op : AluOp) (rd : Reg) (x : Operand) (s : State) : Result :=
  settle s (s.pc + operandBytes x) (aluBody op rd x s)

end Sys2Proof.Machine
end

