-- ==== Sys2Proof/Machine/Arith.lean ====
section
/-! DEFINITION. The meanings of ADD, SUB, CMP, AND, OR, XOR, ADDS, MUL, DIV and MOD (41_arith_logic.md R130 to R141) in their eight operand forms. -/

namespace Sys2Proof.Machine

/-- `ADD Rd,Dsp`, OP = 18h: R131. -/
def execAddDirect (rd : Reg) (dsp : Word) (s : State) : Result :=
  alu .add rd (.mem (.direct dsp)) s

/-- `ADD Rd,Dsp,Rx`, OP = 19h: R131. -/
def execAddIndexed (rd : Reg) (dsp : Word) (rx : Reg) (s : State) : Result :=
  alu .add rd (.mem (.indexed dsp rx)) s

/-- `ADD Rd,#Imm`, OP = 1Ah: R131. -/
def execAddImm (rd : Reg) (imm : Word) (s : State) : Result :=
  alu .add rd (.imm imm) s

/-- `ADD Rd,Dsp4,FP`, OP = 1Bh: R131. -/
def execAddFpRel (rd : Reg) (dsp4 : Int) (s : State) : Result :=
  alu .add rd (.mem (.fpRel dsp4)) s

/-- `ADD Rd,Rs`, OP = 1Ch: R131. -/
def execAddReg (rd : Reg) (rs : Reg) (s : State) : Result :=
  alu .add rd (.reg rs) s

/-- `ADD Rd,#Imm4`, OP = 1Dh: R131. -/
def execAddImm4 (rd : Reg) (imm4 : Int) (s : State) : Result :=
  alu .add rd (.imm4 imm4) s

/-- `ADD Rd,0,Rx`, OP = 1Eh: R131. -/
def execAddIndir (rd : Reg) (rx : Reg) (s : State) : Result :=
  alu .add rd (.mem (.indir rx)) s

/-- `ADD Rd,@Rx`, OP = 1Fh: R131. -/
def execAddByteIndir (rd : Reg) (rx : Reg) (s : State) : Result :=
  alu .add rd (.mem (.byteIndir rx)) s

/-- `SUB Rd,Dsp`, OP = 20h: R132. -/
def execSubDirect (rd : Reg) (dsp : Word) (s : State) : Result :=
  alu .sub rd (.mem (.direct dsp)) s

/-- `SUB Rd,Dsp,Rx`, OP = 21h: R132. -/
def execSubIndexed (rd : Reg) (dsp : Word) (rx : Reg) (s : State) : Result :=
  alu .sub rd (.mem (.indexed dsp rx)) s

/-- `SUB Rd,#Imm`, OP = 22h: R132. -/
def execSubImm (rd : Reg) (imm : Word) (s : State) : Result :=
  alu .sub rd (.imm imm) s

/-- `SUB Rd,Dsp4,FP`, OP = 23h: R132. -/
def execSubFpRel (rd : Reg) (dsp4 : Int) (s : State) : Result :=
  alu .sub rd (.mem (.fpRel dsp4)) s

/-- `SUB Rd,Rs`, OP = 24h: R132. -/
def execSubReg (rd : Reg) (rs : Reg) (s : State) : Result :=
  alu .sub rd (.reg rs) s

/-- `SUB Rd,#Imm4`, OP = 25h: R132. -/
def execSubImm4 (rd : Reg) (imm4 : Int) (s : State) : Result :=
  alu .sub rd (.imm4 imm4) s

/-- `SUB Rd,0,Rx`, OP = 26h: R132. -/
def execSubIndir (rd : Reg) (rx : Reg) (s : State) : Result :=
  alu .sub rd (.mem (.indir rx)) s

/-- `SUB Rd,@Rx`, OP = 27h: R132. -/
def execSubByteIndir (rd : Reg) (rx : Reg) (s : State) : Result :=
  alu .sub rd (.mem (.byteIndir rx)) s

/-- `CMP Rd,Dsp`, OP = 28h: R133. -/
def execCmpDirect (rd : Reg) (dsp : Word) (s : State) : Result :=
  alu .cmp rd (.mem (.direct dsp)) s

/-- `CMP Rd,Dsp,Rx`, OP = 29h: R133. -/
def execCmpIndexed (rd : Reg) (dsp : Word) (rx : Reg) (s : State) : Result :=
  alu .cmp rd (.mem (.indexed dsp rx)) s

/-- `CMP Rd,#Imm`, OP = 2Ah: R133. -/
def execCmpImm (rd : Reg) (imm : Word) (s : State) : Result :=
  alu .cmp rd (.imm imm) s

/-- `CMP Rd,Dsp4,FP`, OP = 2Bh: R133. -/
def execCmpFpRel (rd : Reg) (dsp4 : Int) (s : State) : Result :=
  alu .cmp rd (.mem (.fpRel dsp4)) s

/-- `CMP Rd,Rs`, OP = 2Ch: R133. -/
def execCmpReg (rd : Reg) (rs : Reg) (s : State) : Result :=
  alu .cmp rd (.reg rs) s

/-- `CMP Rd,#Imm4`, OP = 2Dh: R133. -/
def execCmpImm4 (rd : Reg) (imm4 : Int) (s : State) : Result :=
  alu .cmp rd (.imm4 imm4) s

/-- `CMP Rd,0,Rx`, OP = 2Eh: R133. -/
def execCmpIndir (rd : Reg) (rx : Reg) (s : State) : Result :=
  alu .cmp rd (.mem (.indir rx)) s

/-- `CMP Rd,@Rx`, OP = 2Fh: R133. -/
def execCmpByteIndir (rd : Reg) (rx : Reg) (s : State) : Result :=
  alu .cmp rd (.mem (.byteIndir rx)) s

/-- `AND Rd,Dsp`, OP = 30h: R134. -/
def execAndDirect (rd : Reg) (dsp : Word) (s : State) : Result :=
  alu .and rd (.mem (.direct dsp)) s

/-- `AND Rd,Dsp,Rx`, OP = 31h: R134. -/
def execAndIndexed (rd : Reg) (dsp : Word) (rx : Reg) (s : State) : Result :=
  alu .and rd (.mem (.indexed dsp rx)) s

/-- `AND Rd,#Imm`, OP = 32h: R134. -/
def execAndImm (rd : Reg) (imm : Word) (s : State) : Result :=
  alu .and rd (.imm imm) s

/-- `AND Rd,Dsp4,FP`, OP = 33h: R134. -/
def execAndFpRel (rd : Reg) (dsp4 : Int) (s : State) : Result :=
  alu .and rd (.mem (.fpRel dsp4)) s

/-- `AND Rd,Rs`, OP = 34h: R134. -/
def execAndReg (rd : Reg) (rs : Reg) (s : State) : Result :=
  alu .and rd (.reg rs) s

/-- `AND Rd,#Imm4`, OP = 35h: R134. -/
def execAndImm4 (rd : Reg) (imm4 : Int) (s : State) : Result :=
  alu .and rd (.imm4 imm4) s

/-- `AND Rd,0,Rx`, OP = 36h: R134. -/
def execAndIndir (rd : Reg) (rx : Reg) (s : State) : Result :=
  alu .and rd (.mem (.indir rx)) s

/-- `AND Rd,@Rx`, OP = 37h: R134. -/
def execAndByteIndir (rd : Reg) (rx : Reg) (s : State) : Result :=
  alu .and rd (.mem (.byteIndir rx)) s

/-- `OR Rd,Dsp`, OP = 38h: R135. -/
def execOrDirect (rd : Reg) (dsp : Word) (s : State) : Result :=
  alu .or rd (.mem (.direct dsp)) s

/-- `OR Rd,Dsp,Rx`, OP = 39h: R135. -/
def execOrIndexed (rd : Reg) (dsp : Word) (rx : Reg) (s : State) : Result :=
  alu .or rd (.mem (.indexed dsp rx)) s

/-- `OR Rd,#Imm`, OP = 3Ah: R135. -/
def execOrImm (rd : Reg) (imm : Word) (s : State) : Result :=
  alu .or rd (.imm imm) s

/-- `OR Rd,Dsp4,FP`, OP = 3Bh: R135. -/
def execOrFpRel (rd : Reg) (dsp4 : Int) (s : State) : Result :=
  alu .or rd (.mem (.fpRel dsp4)) s

/-- `OR Rd,Rs`, OP = 3Ch: R135. -/
def execOrReg (rd : Reg) (rs : Reg) (s : State) : Result :=
  alu .or rd (.reg rs) s

/-- `OR Rd,#Imm4`, OP = 3Dh: R135. -/
def execOrImm4 (rd : Reg) (imm4 : Int) (s : State) : Result :=
  alu .or rd (.imm4 imm4) s

/-- `OR Rd,0,Rx`, OP = 3Eh: R135. -/
def execOrIndir (rd : Reg) (rx : Reg) (s : State) : Result :=
  alu .or rd (.mem (.indir rx)) s

/-- `OR Rd,@Rx`, OP = 3Fh: R135. -/
def execOrByteIndir (rd : Reg) (rx : Reg) (s : State) : Result :=
  alu .or rd (.mem (.byteIndir rx)) s

/-- `XOR Rd,Dsp`, OP = 40h: R136. -/
def execXorDirect (rd : Reg) (dsp : Word) (s : State) : Result :=
  alu .xor rd (.mem (.direct dsp)) s

/-- `XOR Rd,Dsp,Rx`, OP = 41h: R136. -/
def execXorIndexed (rd : Reg) (dsp : Word) (rx : Reg) (s : State) : Result :=
  alu .xor rd (.mem (.indexed dsp rx)) s

/-- `XOR Rd,#Imm`, OP = 42h: R136. -/
def execXorImm (rd : Reg) (imm : Word) (s : State) : Result :=
  alu .xor rd (.imm imm) s

/-- `XOR Rd,Dsp4,FP`, OP = 43h: R136. -/
def execXorFpRel (rd : Reg) (dsp4 : Int) (s : State) : Result :=
  alu .xor rd (.mem (.fpRel dsp4)) s

/-- `XOR Rd,Rs`, OP = 44h: R136. -/
def execXorReg (rd : Reg) (rs : Reg) (s : State) : Result :=
  alu .xor rd (.reg rs) s

/-- `XOR Rd,#Imm4`, OP = 45h: R136. -/
def execXorImm4 (rd : Reg) (imm4 : Int) (s : State) : Result :=
  alu .xor rd (.imm4 imm4) s

/-- `XOR Rd,0,Rx`, OP = 46h: R136. -/
def execXorIndir (rd : Reg) (rx : Reg) (s : State) : Result :=
  alu .xor rd (.mem (.indir rx)) s

/-- `XOR Rd,@Rx`, OP = 47h: R136. -/
def execXorByteIndir (rd : Reg) (rx : Reg) (s : State) : Result :=
  alu .xor rd (.mem (.byteIndir rx)) s

/-- `ADDS Rd,Dsp`, OP = 48h: R137. -/
def execAddsDirect (rd : Reg) (dsp : Word) (s : State) : Result :=
  alu .adds rd (.mem (.direct dsp)) s

/-- `ADDS Rd,Dsp,Rx`, OP = 49h: R137. -/
def execAddsIndexed (rd : Reg) (dsp : Word) (rx : Reg) (s : State) : Result :=
  alu .adds rd (.mem (.indexed dsp rx)) s

/-- `ADDS Rd,#Imm`, OP = 4Ah: R137. -/
def execAddsImm (rd : Reg) (imm : Word) (s : State) : Result :=
  alu .adds rd (.imm imm) s

/-- `ADDS Rd,Dsp4,FP`, OP = 4Bh: R137. -/
def execAddsFpRel (rd : Reg) (dsp4 : Int) (s : State) : Result :=
  alu .adds rd (.mem (.fpRel dsp4)) s

/-- `ADDS Rd,Rs`, OP = 4Ch: R137. -/
def execAddsReg (rd : Reg) (rs : Reg) (s : State) : Result :=
  alu .adds rd (.reg rs) s

/-- `ADDS Rd,#Imm4`, OP = 4Dh: R137. -/
def execAddsImm4 (rd : Reg) (imm4 : Int) (s : State) : Result :=
  alu .adds rd (.imm4 imm4) s

/-- `ADDS Rd,0,Rx`, OP = 4Eh: R137. -/
def execAddsIndir (rd : Reg) (rx : Reg) (s : State) : Result :=
  alu .adds rd (.mem (.indir rx)) s

/-- `ADDS Rd,@Rx`, OP = 4Fh: R137. -/
def execAddsByteIndir (rd : Reg) (rx : Reg) (s : State) : Result :=
  alu .adds rd (.mem (.byteIndir rx)) s

/-- `MUL Rd,Dsp`, OP = 50h: R138. -/
def execMulDirect (rd : Reg) (dsp : Word) (s : State) : Result :=
  alu .mul rd (.mem (.direct dsp)) s

/-- `MUL Rd,Dsp,Rx`, OP = 51h: R138. -/
def execMulIndexed (rd : Reg) (dsp : Word) (rx : Reg) (s : State) : Result :=
  alu .mul rd (.mem (.indexed dsp rx)) s

/-- `MUL Rd,#Imm`, OP = 52h: R138. -/
def execMulImm (rd : Reg) (imm : Word) (s : State) : Result :=
  alu .mul rd (.imm imm) s

/-- `MUL Rd,Dsp4,FP`, OP = 53h: R138. -/
def execMulFpRel (rd : Reg) (dsp4 : Int) (s : State) : Result :=
  alu .mul rd (.mem (.fpRel dsp4)) s

/-- `MUL Rd,Rs`, OP = 54h: R138. -/
def execMulReg (rd : Reg) (rs : Reg) (s : State) : Result :=
  alu .mul rd (.reg rs) s

/-- `MUL Rd,#Imm4`, OP = 55h: R138. -/
def execMulImm4 (rd : Reg) (imm4 : Int) (s : State) : Result :=
  alu .mul rd (.imm4 imm4) s

/-- `MUL Rd,0,Rx`, OP = 56h: R138. -/
def execMulIndir (rd : Reg) (rx : Reg) (s : State) : Result :=
  alu .mul rd (.mem (.indir rx)) s

/-- `MUL Rd,@Rx`, OP = 57h: R138. -/
def execMulByteIndir (rd : Reg) (rx : Reg) (s : State) : Result :=
  alu .mul rd (.mem (.byteIndir rx)) s

/-- `DIV Rd,Dsp`, OP = 58h: R139. -/
def execDivDirect (rd : Reg) (dsp : Word) (s : State) : Result :=
  alu .div rd (.mem (.direct dsp)) s

/-- `DIV Rd,Dsp,Rx`, OP = 59h: R139. -/
def execDivIndexed (rd : Reg) (dsp : Word) (rx : Reg) (s : State) : Result :=
  alu .div rd (.mem (.indexed dsp rx)) s

/-- `DIV Rd,#Imm`, OP = 5Ah: R139. -/
def execDivImm (rd : Reg) (imm : Word) (s : State) : Result :=
  alu .div rd (.imm imm) s

/-- `DIV Rd,Dsp4,FP`, OP = 5Bh: R139. -/
def execDivFpRel (rd : Reg) (dsp4 : Int) (s : State) : Result :=
  alu .div rd (.mem (.fpRel dsp4)) s

/-- `DIV Rd,Rs`, OP = 5Ch: R139. -/
def execDivReg (rd : Reg) (rs : Reg) (s : State) : Result :=
  alu .div rd (.reg rs) s

/-- `DIV Rd,#Imm4`, OP = 5Dh: R139. -/
def execDivImm4 (rd : Reg) (imm4 : Int) (s : State) : Result :=
  alu .div rd (.imm4 imm4) s

/-- `DIV Rd,0,Rx`, OP = 5Eh: R139. -/
def execDivIndir (rd : Reg) (rx : Reg) (s : State) : Result :=
  alu .div rd (.mem (.indir rx)) s

/-- `DIV Rd,@Rx`, OP = 5Fh: R139. -/
def execDivByteIndir (rd : Reg) (rx : Reg) (s : State) : Result :=
  alu .div rd (.mem (.byteIndir rx)) s

/-- `MOD Rd,Dsp`, OP = 60h: R140. -/
def execModDirect (rd : Reg) (dsp : Word) (s : State) : Result :=
  alu .mod rd (.mem (.direct dsp)) s

/-- `MOD Rd,Dsp,Rx`, OP = 61h: R140. -/
def execModIndexed (rd : Reg) (dsp : Word) (rx : Reg) (s : State) : Result :=
  alu .mod rd (.mem (.indexed dsp rx)) s

/-- `MOD Rd,#Imm`, OP = 62h: R140. -/
def execModImm (rd : Reg) (imm : Word) (s : State) : Result :=
  alu .mod rd (.imm imm) s

/-- `MOD Rd,Dsp4,FP`, OP = 63h: R140. -/
def execModFpRel (rd : Reg) (dsp4 : Int) (s : State) : Result :=
  alu .mod rd (.mem (.fpRel dsp4)) s

/-- `MOD Rd,Rs`, OP = 64h: R140. -/
def execModReg (rd : Reg) (rs : Reg) (s : State) : Result :=
  alu .mod rd (.reg rs) s

/-- `MOD Rd,#Imm4`, OP = 65h: R140. -/
def execModImm4 (rd : Reg) (imm4 : Int) (s : State) : Result :=
  alu .mod rd (.imm4 imm4) s

/-- `MOD Rd,0,Rx`, OP = 66h: R140. -/
def execModIndir (rd : Reg) (rx : Reg) (s : State) : Result :=
  alu .mod rd (.mem (.indir rx)) s

/-- `MOD Rd,@Rx`, OP = 67h: R140. -/
def execModByteIndir (rd : Reg) (rx : Reg) (s : State) : Result :=
  alu .mod rd (.mem (.byteIndir rx)) s

end Sys2Proof.Machine
end

