-- ==== Sys2Proof/Machine/Io.lean ====
section
/-! DEFINITION. The I/O space and the registers behind its ports (20_memory.md R58 to R68, 60_exceptions.md R230 to R239,
R253), and the shared effects of IN and OUT (44_io.md). -/

namespace Sys2Proof.Machine

/-! ## Port layouts -/

/-- The bits of an I/O byte that a read can show as 1, by address: "bits printed 0 and bytes printed 00H read 0", free
ports read 0000h (60_exceptions.md R230 to R238, R253). Where the layout of a direction is not printed, all eight. -/
def readMask (a : Nat) : Byte :=
  match a with
  | 0x08 => 0x00
  | 0x0A => 0x00
  | 0x0B => 0xC0
  | 0x0C => 0x00
  | 0x0E => 0x00
  | 0x0F => 0xC0
  | 0x10 => 0x00
  | 0x11 => 0xC1
  | 0x18 => 0x00
  | 0x1A => 0x00
  | 0x1C => 0x00
  | 0x1E => 0x00
  | 0x20 => 0x00
  | 0x22 => 0x00
  | 0x24 => 0x00
  | 0x26 => 0x00
  | 0x28 => 0x00
  | 0x2A => 0x00
  | 0x2B => 0xC0
  | 0x2C => 0x00
  | 0x2D => 0x0F
  | 0x2E => 0x00
  | 0x30 => 0x00
  | 0x32 => 0x00
  | 0x33 => 0x00
  | 0x34 => 0x00
  | 0x35 => 0x00
  | 0x36 => 0x00
  | 0xF0 => 0x00
  | 0xF2 => 0x00
  | 0xFC => 0x00
  | 0xFD => 0x1F
  | 0xFE => 0x00
  | 0xFF => 0x0F
  | _ => if 0x38 ≤ a ∧ a ≤ 0xEF then 0x00 else 0xFF

/-- The bits of an I/O byte that a write stores in an output register, by address (60_exceptions.md R230 to R238, R253):
none for a byte printed 00H, a free port or a port that is only read; the named bits where a pattern is printed. The
timers' control ports 02h and 06h hold all 16 bits written, since the source does not settle whether I and S of "I000
000S" are bits 7 and 0 of the even byte or bits 15 and 0 of the word (R232): DESIGN CHOICE, safe
(notes/assumptions/48.md). -/
def writeMask (a : Nat) : Byte :=
  match a with
  | 0x08 => 0x00
  | 0x0A => 0x00
  | 0x0B => 0xC0
  | 0x0C => 0x00
  | 0x0E => 0x00
  | 0x0F => 0xC0
  | 0x10 => 0x00
  | 0x11 => 0x87
  | 0x18 => 0x00
  | 0x1A => 0x00
  | 0x1C => 0x00
  | 0x1D => 0x8F
  | 0x1E => 0x00
  | 0x1F => 0x00
  | 0x20 => 0x00
  | 0x22 => 0x00
  | 0x24 => 0x00
  | 0x26 => 0x00
  | 0x28 => 0x00
  | 0x2A => 0x00
  | 0x2B => 0xC0
  | 0x2C => 0x00
  | 0x2D => 0x0F
  | 0x2E => 0x00
  | 0x30 => 0x00
  | 0x31 => 0x00
  | 0x32 => 0x00
  | 0x34 => 0x00
  | 0x36 => 0x00
  | _ => if 0x38 ≤ a ∧ a ≤ 0xF7 then 0x00 else if 0xFA ≤ a then 0x00 else 0xFF

/-- The mode port's code of each switch position (60_exceptions.md R235). -/
def modeCode : ModeSwitch → Byte
  | .tec => 0
  | .tac => 1
  | .demo1 => 2
  | .demo2 => 3
  | .rn4020FactoryReset => 7

/-! ## The output registers by name -/

/-- A 16-bit output register at an even I/O address (60_exceptions.md R230). -/
def Io.word (d : Io) (a : Nat) : Word := joinBytes (Memory.read d.latch a) (Memory.read d.latch (a + 1))

/-- An 8-bit output register at its odd I/O address (60_exceptions.md R230). -/
def Io.byte (d : Io) (a : Nat) : Byte := Memory.read d.latch a

def Io.timer0Period (d : Io) : Word := Io.word d 0x00
def Io.timer0Control (d : Io) : Word := Io.word d 0x02
def Io.timer1Period (d : Io) : Word := Io.word d 0x04
def Io.timer1Control (d : Io) : Word := Io.word d 0x06
def Io.ft232rlData (d : Io) : Byte := Io.byte d 0x09
def Io.ft232rlControl (d : Io) : Byte := Io.byte d 0x0B
def Io.tecData (d : Io) : Byte := Io.byte d 0x0D
def Io.tecControl (d : Io) : Byte := Io.byte d 0x0F
def Io.usdControl (d : Io) : Byte := Io.byte d 0x11
def Io.usdMemAddr (d : Io) : Word := Io.word d 0x12
def Io.usdBlkAddrH (d : Io) : Word := Io.word d 0x14
def Io.usdBlkAddrL (d : Io) : Word := Io.word d 0x16
def Io.parallelPort (d : Io) : Byte := Io.byte d 0x19
def Io.adcReference (d : Io) : Byte := Io.byte d 0x1B
def Io.parallelPortHi (d : Io) : Byte := Io.byte d 0x1D
def Io.spiData (d : Io) : Byte := Io.byte d 0x21
def Io.spiSclk (d : Io) : Byte := Io.byte d 0x23
def Io.pioMask (d : Io) : Byte := Io.byte d 0x25
def Io.pioXor (d : Io) : Byte := Io.byte d 0x27
def Io.rn4020Data (d : Io) : Byte := Io.byte d 0x29
def Io.rn4020Control (d : Io) : Byte := Io.byte d 0x2B
def Io.rn4020Cmd (d : Io) : Byte := Io.byte d 0x2D
def Io.rn4020Ram (d : Io) : Byte := Io.byte d 0x2F
def Io.tecDsw (d : Io) : Byte := Io.byte d 0x33
def Io.tecFnc (d : Io) : Byte := Io.byte d 0x35
def Io.tecCtl (d : Io) : Byte := Io.byte d 0x37
def Io.consoleData (d : Io) : Word := Io.word d 0xF8

/-! ## Reading -/

/-- What a device puts at an I/O address: the oracle's byte within the printed zero bits (60_exceptions.md R236). -/
def deviceByte (a : Nat) (s : State) : Byte :=
  if readMask a = 0 then 0 else Config.ioRead s.io.history s.draws a &&& readMask a

/-- The byte an IN sees at an I/O address: the registers the CPU side holds (the violation cause R64, the missing page
R66, RN4020-RAM R237), one of the five mode codes at the mode port (R235), else the device's. -/
def portByte (a : Nat) (s : State) : Byte :=
  match a with
  | 0x1F => modeCode (Config.modeSwitch s.io.history s.draws)
  | 0x2F => Io.rn4020Ram s.io
  | 0xF4 => 0
  | 0xF5 => if s.mmu.cause then 1 else 0
  | 0xF7 => s.mmu.missPage
  | _ => deviceByte a s

/-- Why an I/O access has no meaning, if it has none: an address above 00FFh, a word at an odd one (20_memory.md R58,
R59). -/
def ioRefusal (w : Width) (a : Word) : Option Refusal :=
  if 255 < a.toNat then some .ioAddressAboveFF
  else if w = .word ∧ isOdd a = true then some .ioWordAtOddAddress
  else none

/-- The I/O access joins the record (60_exceptions.md R236). -/
def logIo (ev : IoEvent) (s : State) : State := s.setIo { s.io with history := ev :: s.io.history }

/-- The value of an I/O read: the even address in bits 15 to 8; a byte zero-extended (20_memory.md R58, 44_io.md
R181). -/
def ioValue (w : Width) (a : Word) (s : State) : Word :=
  match w with
  | .word => joinBytes (portByte a.toNat s) (portByte (a.toNat + 1) s)
  | .byte => (portByte a.toNat s).setWidth 16

/-! ## Writing -/

/-- One bit of the enable record. -/
def sourceBit (b : Bool) (k : Nat) : BitVec 10 := if b then 1 <<< k else 0

/-- The interrupt sources whose enable bit a write of a byte sets (60_exceptions.md R201, R232 to R235): the timers' I
is bit 15 of the control word in both readings of R232; the PIO's ports have no bit meanings, so any bit set counts
(notes/assumptions/31.md). -/
def enabledBy (a : Nat) (v : Byte) : BitVec 10 :=
  match a with
  | 0x02 => sourceBit (v.getLsbD 7) 0
  | 0x06 => sourceBit (v.getLsbD 7) 1
  | 0x2B => sourceBit (v.getLsbD 6) 2 ||| sourceBit (v.getLsbD 7) 3
  | 0x0B => sourceBit (v.getLsbD 6) 4 ||| sourceBit (v.getLsbD 7) 5
  | 0x0F => sourceBit (v.getLsbD 6) 6 ||| sourceBit (v.getLsbD 7) 7
  | 0x11 => sourceBit (v.getLsbD 7) 8
  | 0x25 => sourceBit (v != 0) 9
  | 0x27 => sourceBit (v != 0) 9
  | _ => 0

/-- A write of a byte starts an SD transfer: READ or WRITE of uSD-Ctrl (60_exceptions.md R234). -/
def startsTransfer (a : Nat) (v : Byte) : Bool := decide (a = 0x11) && (v.getLsbD 1 || v.getLsbD 0)

/-- A write of a byte to a device port (60_exceptions.md R231 to R238, R253). -/
def deviceWrite (a : Nat) (v : Byte) (d : Io) : Io :=
  { d with latch := Memory.write d.latch a (v &&& writeMask a), irqEnabled := d.irqEnabled ||| enabledBy a v,
           usdStarted := d.usdStarted || startsTransfer a v }

/-- A write of a byte to one of the MMU's ports (20_memory.md R61 to R66). With both modes off, F4h writes the base and
the holding register alike (notes/assumptions/39.md). -/
def mmuWrite (a : Nat) (v : Byte) (m : Mmu) : Mmu :=
  match a with
  | 0xF1 => { m with iplDetached := m.iplDetached || v.getLsbD 0 }
  | 0xF3 => { m with relocation := v.getLsbD 0, paging := v.getLsbD 1 }
  | 0xF4 => { m with base := joinBytes v (loByte m.base), tlbHold := joinBytes v (loByte m.tlbHold) }
  | 0xF5 => { m with base := joinBytes (hiByte m.base) v, tlbHold := joinBytes (hiByte m.tlbHold) v }
  | 0xF6 => { m with limit := joinBytes v (loByte m.limit) }
  | 0xF7 => { m with limit := joinBytes (hiByte m.limit) v }
  | _ => m

/-- The TLB entry a 16-bit write to F6h loads: index in bits 10 to 8, page number in bits 7 to 0, the low 16 bits from
the holding register (20_memory.md R66, R67). -/
def loadTlb (v : Word) (m : Mmu) : Mmu :=
  { m with tlb := m.tlb.set (v.extractLsb' 8 3).toNat (loByte v ++ m.tlbHold) (v.extractLsb' 8 3).isLt }

/-- A write of a byte to an I/O address; re-attaching the ROM is refused (20_memory.md R61). -/
def portWrite (a : Nat) (v : Byte) (s : State) : Except Stop State :=
  if a = 0xF1 ∧ s.mmu.iplDetached = true ∧ v.getLsbD 0 = false then .error (.refuse .romReattach)
  else if 0xF0 ≤ a ∧ a ≤ 0xF7 then .ok (s.setMmu (mmuWrite a v s.mmu))
  else .ok (s.setIo (deviceWrite a v s.io))

/-- The bytes of an I/O write: bits 15 to 8 to the even address, bits 7 to 0 to the odd one, or bits 7 to 0 alone
(20_memory.md R59); the word port F6h loads a TLB entry too (R66). -/
def ioWriteBytes (w : Width) (a : Word) (v : Word) (s : State) : Except Stop State :=
  match w with
  | .word =>
    match portWrite a.toNat (hiByte v) s with
    | .error e => .error e
    | .ok s1 =>
      match portWrite (a.toNat + 1) (loByte v) s1 with
      | .error e => .error e
      | .ok s2 => .ok (if a = 0xF6 then s2.setMmu (loadTlb v s2.mmu) else s2)
  | .byte => portWrite a.toNat (loByte v) s

/-! ## IN and OUT -/

/-- `io_allowed` of 44_io.md R183. -/
def ioAllowed (s : State) : Bool := s.flag.p || s.flag.i

/-- IN (44_io.md R181): the privilege check first, then the address, then the read, which joins the record. -/
def inputBody (rd : Reg) (x : IoEa) (s : State) : Except Stop State :=
  if ioAllowed s then
    match ioRefusal (ioWidth x) (ioAddr x s) with
    | some r => .error (.refuse r)
    | none =>
      .ok ((writeReg rd (ioValue (ioWidth x) (ioAddr x s) s)
        (logIo (.read (ioWidth x) (ioAddr x s)) s)).setPc (s.pc + ioBytes x))
  else .error (.exc .privilegeViolation)

/-- IN as an outcome. -/
def input (rd : Reg) (x : IoEa) (s : State) : Result := settle s (s.pc + ioBytes x) (inputBody rd x s)

/-- The value OUT records and writes: all of Rd, or its bits 7 to 0 (20_memory.md R59, 44_io.md R182). -/
def outValue (w : Width) (v : Word) : Word :=
  match w with
  | .word => v
  | .byte => (loByte v).setWidth 16

/-- OUT (44_io.md R182): the privilege check first, then the address, then the write, which joins the record. -/
def outputBody (rd : Reg) (x : IoEa) (s : State) : Except Stop State :=
  if ioAllowed s then
    match ioRefusal (ioWidth x) (ioAddr x s) with
    | some r => .error (.refuse r)
    | none =>
      match ioWriteBytes (ioWidth x) (ioAddr x s) (readReg rd s) s with
      | .error e => .error e
      | .ok t =>
        .ok ((logIo (.write (ioWidth x) (ioAddr x s) (outValue (ioWidth x) (readReg rd s))) t).setPc
          (s.pc + ioBytes x))
  else .error (.exc .privilegeViolation)

/-- OUT as an outcome. -/
def output (rd : Reg) (x : IoEa) (s : State) : Result := settle s (s.pc + ioBytes x) (outputBody rd x s)

end Sys2Proof.Machine
end

