-- ==== Sys2Proof/Machine/InOut.lean ====
section
/-! DEFINITION. The meanings of IN and OUT (44_io.md). -/

namespace Sys2Proof.Machine

/-- `IN Rd,Dsp`, OP = B0h: R181. -/
def execInDirect (rd : Reg) (dsp : Word) (s : State) : Result :=
  input rd (.direct dsp) s

/-- `IN Rd,0,Rx`, OP = B6h: R181. -/
def execInIndir (rd : Reg) (rx : Reg) (s : State) : Result :=
  input rd (.indir rx) s

/-- `IN Rd,@Rx`, OP = B7h: R181. -/
def execInByteIndir (rd : Reg) (rx : Reg) (s : State) : Result :=
  input rd (.byteIndir rx) s

/-- `OUT Rd,Dsp`, OP = B8h: R182. -/
def execOutDirect (rd : Reg) (dsp : Word) (s : State) : Result :=
  output rd (.direct dsp) s

/-- `OUT Rd,0,Rx`, OP = BEh: R182. -/
def execOutIndir (rd : Reg) (rx : Reg) (s : State) : Result :=
  output rd (.indir rx) s

/-- `OUT Rd,@Rx`, OP = BFh: R182. -/
def execOutByteIndir (rd : Reg) (rx : Reg) (s : State) : Result :=
  output rd (.byteIndir rx) s

end Sys2Proof.Machine
end

