-- ==== Sys2Proof/Machine/Shapes.lean ====
section
/-! DEFINITION. The shared effects of the load, store, jump, call, stack and system instructions; the meaning of each
row is one call of one of these. -/

namespace Sys2Proof.Machine

/-- NO: "does nothing" (40_no_load_store.md R121). -/
def noOperation (s : State) : Result := .next (s.setPc (s.pc + 2))

/-- LD: `x[Rd] <- opv` (40_no_load_store.md R122). -/
def loadBody (rd : Reg) (x : Operand) (s : State) : Except Stop State :=
  match operandValue x s with
  | .error e => .error e
  | .ok v => .ok ((writeReg rd v s).setPc (s.pc + operandBytes x))

/-- LD as an outcome. -/
def load (rd : Reg) (x : Operand) (s : State) : Result := settle s (s.pc + operandBytes x) (loadBody rd x s)

/-- ST: `MemWrite(ea, n, x[Rd])` (40_no_load_store.md R123). -/
def storeBody (rd : Reg) (x : MemEa) (s : State) : Except Stop State :=
  match memWrite (memWidth x) (memAddr x s) (readReg rd s) s with
  | .error e => .error e
  | .ok t => .ok (t.setPc (s.pc + memBytes x))

/-- ST as an outcome. -/
def store (rd : Reg) (x : MemEa) (s : State) : Result := settle s (s.pc + memBytes x) (storeBody rd x s)

/-- A jump: `pc <- ea` if the condition holds, else the next instruction (43_jump_call.md R160). -/
def jump (cond : Cond) (x : JumpEa) (s : State) : Result :=
  .next (s.setPc (if condHolds cond s.flag then jumpTarget x s else s.pc + 4))

/-- CALL: the return address is pushed, then `pc <- ea`, the target computed before SP changes (43_jump_call.md
R176). -/
def callBody (x : JumpEa) (s : State) : Except Stop State :=
  match push (s.pc + 4) s with
  | .error e => .error e
  | .ok t => .ok (t.setPc (jumpTarget x s))

/-- CALL as an outcome. -/
def call (x : JumpEa) (s : State) : Result := settle s (s.pc + 4) (callBody x s)

/-- The register is the stack pointer in use: number Dh, and Eh too when P = 0 (45_stack_return.md R186, R187). -/
def namesStackPointer (r : Reg) (s : State) : Bool :=
  match r with
  | .g _ => false
  | .fp => false
  | .sp => true
  | .usp => !s.flag.p
  | .flag => false

/-- PUSH (45_stack_return.md R186); of the stack pointer itself it is refused (U6). -/
def pushBody (rd : Reg) (s : State) : Except Stop State :=
  if namesStackPointer rd s then .error (.refuse .stackPointerOperand)
  else
    match push (readReg rd s) s with
    | .error e => .error e
    | .ok t => .ok (t.setPc (s.pc + 2))

/-- PUSH as an outcome. -/
def pushReg (rd : Reg) (s : State) : Result := settle s (s.pc + 2) (pushBody rd s)

/-- POP (45_stack_return.md R187); of the stack pointer itself it is refused (U6). -/
def popBody (rd : Reg) (s : State) : Except Stop State :=
  if namesStackPointer rd s then .error (.refuse .stackPointerOperand)
  else
    match pop s with
    | .error e => .error e
    | .ok (v, t) => .ok ((writeReg rd v t).setPc (s.pc + 2))

/-- POP as an outcome. -/
def popReg (rd : Reg) (s : State) : Result := settle s (s.pc + 2) (popBody rd s)

/-- RET: `pc <- Pop()` (45_stack_return.md R189). -/
def retBody (s : State) : Except Stop State :=
  match pop s with
  | .error e => .error e
  | .ok (v, t) => .ok (t.setPc v)

/-- RET as an outcome. -/
def returnFromCall (s : State) : Result := settle s (s.pc + 2) (retBody s)

/-- SVC: the exception SupervisorCall, which saves the address after it (46_system.md R195). -/
def supervisorCall (s : State) : Result := takeException .supervisorCall (s.pc + 2) s

/-- HALT: "the CPU stops executing instructions; pc <- pc_next"; a privilege violation with P = 0 (46_system.md R196,
R197). -/
def halt (s : State) : Result :=
  if s.flag.p then .next ((s.setHalted true).setPc (s.pc + 2)) else takeException .privilegeViolation (s.pc + 2) s

end Sys2Proof.Machine
end

