-- ==== Sys2Proof/Machine/Jump.lean ====
section
/-! DEFINITION. The meanings of the fifteen jumps and CALL (43_jump_call.md). -/

namespace Sys2Proof.Machine

/-- `JZ Dsp`, OP = A0h: R161. -/
def execJzDirect (dsp : Word) (s : State) : Result :=
  jump .z (.direct dsp) s

/-- `JZ Dsp,Rx`, OP = A1h: R161. -/
def execJzIndexed (dsp : Word) (rx : Reg) (s : State) : Result :=
  jump .z (.indexed dsp rx) s

/-- `JC Dsp`, OP = A0h: R162. -/
def execJcDirect (dsp : Word) (s : State) : Result :=
  jump .c (.direct dsp) s

/-- `JC Dsp,Rx`, OP = A1h: R162. -/
def execJcIndexed (dsp : Word) (rx : Reg) (s : State) : Result :=
  jump .c (.indexed dsp rx) s

/-- `JM Dsp`, OP = A0h: R163. -/
def execJmDirect (dsp : Word) (s : State) : Result :=
  jump .m (.direct dsp) s

/-- `JM Dsp,Rx`, OP = A1h: R163. -/
def execJmIndexed (dsp : Word) (rx : Reg) (s : State) : Result :=
  jump .m (.indexed dsp rx) s

/-- `JO Dsp`, OP = A0h: R164. -/
def execJoDirect (dsp : Word) (s : State) : Result :=
  jump .o (.direct dsp) s

/-- `JO Dsp,Rx`, OP = A1h: R164. -/
def execJoIndexed (dsp : Word) (rx : Reg) (s : State) : Result :=
  jump .o (.indexed dsp rx) s

/-- `JGT Dsp`, OP = A0h: R165. -/
def execJgtDirect (dsp : Word) (s : State) : Result :=
  jump .gt (.direct dsp) s

/-- `JGT Dsp,Rx`, OP = A1h: R165. -/
def execJgtIndexed (dsp : Word) (rx : Reg) (s : State) : Result :=
  jump .gt (.indexed dsp rx) s

/-- `JGE Dsp`, OP = A0h: R166. -/
def execJgeDirect (dsp : Word) (s : State) : Result :=
  jump .ge (.direct dsp) s

/-- `JGE Dsp,Rx`, OP = A1h: R166. -/
def execJgeIndexed (dsp : Word) (rx : Reg) (s : State) : Result :=
  jump .ge (.indexed dsp rx) s

/-- `JLE Dsp`, OP = A0h: R167. -/
def execJleDirect (dsp : Word) (s : State) : Result :=
  jump .le (.direct dsp) s

/-- `JLE Dsp,Rx`, OP = A1h: R167. -/
def execJleIndexed (dsp : Word) (rx : Reg) (s : State) : Result :=
  jump .le (.indexed dsp rx) s

/-- `JLT Dsp`, OP = A0h: R168. -/
def execJltDirect (dsp : Word) (s : State) : Result :=
  jump .lt (.direct dsp) s

/-- `JLT Dsp,Rx`, OP = A1h: R168. -/
def execJltIndexed (dsp : Word) (rx : Reg) (s : State) : Result :=
  jump .lt (.indexed dsp rx) s

/-- `JNZ Dsp`, OP = A0h: R169. -/
def execJnzDirect (dsp : Word) (s : State) : Result :=
  jump .nz (.direct dsp) s

/-- `JNZ Dsp,Rx`, OP = A1h: R169. -/
def execJnzIndexed (dsp : Word) (rx : Reg) (s : State) : Result :=
  jump .nz (.indexed dsp rx) s

/-- `JNC Dsp`, OP = A0h: R170. -/
def execJncDirect (dsp : Word) (s : State) : Result :=
  jump .nc (.direct dsp) s

/-- `JNC Dsp,Rx`, OP = A1h: R170. -/
def execJncIndexed (dsp : Word) (rx : Reg) (s : State) : Result :=
  jump .nc (.indexed dsp rx) s

/-- `JNM Dsp`, OP = A0h: R171. -/
def execJnmDirect (dsp : Word) (s : State) : Result :=
  jump .nm (.direct dsp) s

/-- `JNM Dsp,Rx`, OP = A1h: R171. -/
def execJnmIndexed (dsp : Word) (rx : Reg) (s : State) : Result :=
  jump .nm (.indexed dsp rx) s

/-- `JNO Dsp`, OP = A0h: R172. -/
def execJnoDirect (dsp : Word) (s : State) : Result :=
  jump .no (.direct dsp) s

/-- `JNO Dsp,Rx`, OP = A1h: R172. -/
def execJnoIndexed (dsp : Word) (rx : Reg) (s : State) : Result :=
  jump .no (.indexed dsp rx) s

/-- `JHI Dsp`, OP = A0h: R173. -/
def execJhiDirect (dsp : Word) (s : State) : Result :=
  jump .hi (.direct dsp) s

/-- `JHI Dsp,Rx`, OP = A1h: R173. -/
def execJhiIndexed (dsp : Word) (rx : Reg) (s : State) : Result :=
  jump .hi (.indexed dsp rx) s

/-- `JLS Dsp`, OP = A0h: R174. -/
def execJlsDirect (dsp : Word) (s : State) : Result :=
  jump .ls (.direct dsp) s

/-- `JLS Dsp,Rx`, OP = A1h: R174. -/
def execJlsIndexed (dsp : Word) (rx : Reg) (s : State) : Result :=
  jump .ls (.indexed dsp rx) s

/-- `JMP Dsp`, OP = A0h: R175. -/
def execJmpDirect (dsp : Word) (s : State) : Result :=
  jump .always (.direct dsp) s

/-- `JMP Dsp,Rx`, OP = A1h: R175. -/
def execJmpIndexed (dsp : Word) (rx : Reg) (s : State) : Result :=
  jump .always (.indexed dsp rx) s

/-- `CALL Dsp`, OP = A8h: R176. -/
def execCallDirect (dsp : Word) (s : State) : Result :=
  call (.direct dsp) s

/-- `CALL Dsp,Rx`, OP = A9h: R176. -/
def execCallIndexed (dsp : Word) (rx : Reg) (s : State) : Result :=
  call (.indexed dsp rx) s

end Sys2Proof.Machine
end

