-- ==== Sys2Proof/Machine/LoadStore.lean ====
section
/-! DEFINITION. The meanings of NO, LD and ST (40_no_load_store.md). -/

namespace Sys2Proof.Machine

/-- `NO`, OP = 00h: R121. -/
def execNo (s : State) : Result :=
  noOperation s

/-- `LD Rd,Dsp`, OP = 08h: R122. -/
def execLdDirect (rd : Reg) (dsp : Word) (s : State) : Result :=
  load rd (.mem (.direct dsp)) s

/-- `LD Rd,Dsp,Rx`, OP = 09h: R122. -/
def execLdIndexed (rd : Reg) (dsp : Word) (rx : Reg) (s : State) : Result :=
  load rd (.mem (.indexed dsp rx)) s

/-- `LD Rd,#Imm`, OP = 0Ah: R122. -/
def execLdImm (rd : Reg) (imm : Word) (s : State) : Result :=
  load rd (.imm imm) s

/-- `LD Rd,Dsp4,FP`, OP = 0Bh: R122. -/
def execLdFpRel (rd : Reg) (dsp4 : Int) (s : State) : Result :=
  load rd (.mem (.fpRel dsp4)) s

/-- `LD Rd,Rs`, OP = 0Ch: R122. -/
def execLdReg (rd : Reg) (rs : Reg) (s : State) : Result :=
  load rd (.reg rs) s

/-- `LD Rd,#Imm4`, OP = 0Dh: R122. -/
def execLdImm4 (rd : Reg) (imm4 : Int) (s : State) : Result :=
  load rd (.imm4 imm4) s

/-- `LD Rd,0,Rx`, OP = 0Eh: R122. -/
def execLdIndir (rd : Reg) (rx : Reg) (s : State) : Result :=
  load rd (.mem (.indir rx)) s

/-- `LD Rd,@Rx`, OP = 0Fh: R122. -/
def execLdByteIndir (rd : Reg) (rx : Reg) (s : State) : Result :=
  load rd (.mem (.byteIndir rx)) s

/-- `ST Rd,Dsp`, OP = 10h: R123. -/
def execStDirect (rd : Reg) (dsp : Word) (s : State) : Result :=
  store rd (.direct dsp) s

/-- `ST Rd,Dsp,Rx`, OP = 11h: R123. -/
def execStIndexed (rd : Reg) (dsp : Word) (rx : Reg) (s : State) : Result :=
  store rd (.indexed dsp rx) s

/-- `ST Rd,Dsp4,FP`, OP = 13h: R123. -/
def execStFpRel (rd : Reg) (dsp4 : Int) (s : State) : Result :=
  store rd (.fpRel dsp4) s

/-- `ST Rd,0,Rx`, OP = 16h: R123. -/
def execStIndir (rd : Reg) (rx : Reg) (s : State) : Result :=
  store rd (.indir rx) s

/-- `ST Rd,@Rx`, OP = 17h: R123. -/
def execStByteIndir (rd : Reg) (rx : Reg) (s : State) : Result :=
  store rd (.byteIndir rx) s

end Sys2Proof.Machine
end

