-- ==== Sys2Proof/Machine/Shift.lean ====
section
/-! DEFINITION. The meanings of SHLA, SHLL, SHRA and SHRL (42_shift.md R150 to R154) in their eight operand forms. -/

namespace Sys2Proof.Machine

/-- `SHLA Rd,Dsp`, OP = 80h: R151. -/
def execShlaDirect (rd : Reg) (dsp : Word) (s : State) : Result :=
  alu .shla rd (.mem (.direct dsp)) s

/-- `SHLA Rd,Dsp,Rx`, OP = 81h: R151. -/
def execShlaIndexed (rd : Reg) (dsp : Word) (rx : Reg) (s : State) : Result :=
  alu .shla rd (.mem (.indexed dsp rx)) s

/-- `SHLA Rd,#Imm`, OP = 82h: R151. -/
def execShlaImm (rd : Reg) (imm : Word) (s : State) : Result :=
  alu .shla rd (.imm imm) s

/-- `SHLA Rd,Dsp4,FP`, OP = 83h: R151. -/
def execShlaFpRel (rd : Reg) (dsp4 : Int) (s : State) : Result :=
  alu .shla rd (.mem (.fpRel dsp4)) s

/-- `SHLA Rd,Rs`, OP = 84h: R151. -/
def execShlaReg (rd : Reg) (rs : Reg) (s : State) : Result :=
  alu .shla rd (.reg rs) s

/-- `SHLA Rd,#Imm4`, OP = 85h: R151. -/
def execShlaImm4 (rd : Reg) (imm4 : Int) (s : State) : Result :=
  alu .shla rd (.imm4 imm4) s

/-- `SHLA Rd,0,Rx`, OP = 86h: R151. -/
def execShlaIndir (rd : Reg) (rx : Reg) (s : State) : Result :=
  alu .shla rd (.mem (.indir rx)) s

/-- `SHLA Rd,@Rx`, OP = 87h: R151. -/
def execShlaByteIndir (rd : Reg) (rx : Reg) (s : State) : Result :=
  alu .shla rd (.mem (.byteIndir rx)) s

/-- `SHLL Rd,Dsp`, OP = 88h: R152. -/
def execShllDirect (rd : Reg) (dsp : Word) (s : State) : Result :=
  alu .shll rd (.mem (.direct dsp)) s

/-- `SHLL Rd,Dsp,Rx`, OP = 89h: R152. -/
def execShllIndexed (rd : Reg) (dsp : Word) (rx : Reg) (s : State) : Result :=
  alu .shll rd (.mem (.indexed dsp rx)) s

/-- `SHLL Rd,#Imm`, OP = 8Ah: R152. -/
def execShllImm (rd : Reg) (imm : Word) (s : State) : Result :=
  alu .shll rd (.imm imm) s

/-- `SHLL Rd,Dsp4,FP`, OP = 8Bh: R152. -/
def execShllFpRel (rd : Reg) (dsp4 : Int) (s : State) : Result :=
  alu .shll rd (.mem (.fpRel dsp4)) s

/-- `SHLL Rd,Rs`, OP = 8Ch: R152. -/
def execShllReg (rd : Reg) (rs : Reg) (s : State) : Result :=
  alu .shll rd (.reg rs) s

/-- `SHLL Rd,#Imm4`, OP = 8Dh: R152. -/
def execShllImm4 (rd : Reg) (imm4 : Int) (s : State) : Result :=
  alu .shll rd (.imm4 imm4) s

/-- `SHLL Rd,0,Rx`, OP = 8Eh: R152. -/
def execShllIndir (rd : Reg) (rx : Reg) (s : State) : Result :=
  alu .shll rd (.mem (.indir rx)) s

/-- `SHLL Rd,@Rx`, OP = 8Fh: R152. -/
def execShllByteIndir (rd : Reg) (rx : Reg) (s : State) : Result :=
  alu .shll rd (.mem (.byteIndir rx)) s

/-- `SHRA Rd,Dsp`, OP = 90h: R153. -/
def execShraDirect (rd : Reg) (dsp : Word) (s : State) : Result :=
  alu .shra rd (.mem (.direct dsp)) s

/-- `SHRA Rd,Dsp,Rx`, OP = 91h: R153. -/
def execShraIndexed (rd : Reg) (dsp : Word) (rx : Reg) (s : State) : Result :=
  alu .shra rd (.mem (.indexed dsp rx)) s

/-- `SHRA Rd,#Imm`, OP = 92h: R153. -/
def execShraImm (rd : Reg) (imm : Word) (s : State) : Result :=
  alu .shra rd (.imm imm) s

/-- `SHRA Rd,Dsp4,FP`, OP = 93h: R153. -/
def execShraFpRel (rd : Reg) (dsp4 : Int) (s : State) : Result :=
  alu .shra rd (.mem (.fpRel dsp4)) s

/-- `SHRA Rd,Rs`, OP = 94h: R153. -/
def execShraReg (rd : Reg) (rs : Reg) (s : State) : Result :=
  alu .shra rd (.reg rs) s

/-- `SHRA Rd,#Imm4`, OP = 95h: R153. -/
def execShraImm4 (rd : Reg) (imm4 : Int) (s : State) : Result :=
  alu .shra rd (.imm4 imm4) s

/-- `SHRA Rd,0,Rx`, OP = 96h: R153. -/
def execShraIndir (rd : Reg) (rx : Reg) (s : State) : Result :=
  alu .shra rd (.mem (.indir rx)) s

/-- `SHRA Rd,@Rx`, OP = 97h: R153. -/
def execShraByteIndir (rd : Reg) (rx : Reg) (s : State) : Result :=
  alu .shra rd (.mem (.byteIndir rx)) s

/-- `SHRL Rd,Dsp`, OP = 98h: R154. -/
def execShrlDirect (rd : Reg) (dsp : Word) (s : State) : Result :=
  alu .shrl rd (.mem (.direct dsp)) s

/-- `SHRL Rd,Dsp,Rx`, OP = 99h: R154. -/
def execShrlIndexed (rd : Reg) (dsp : Word) (rx : Reg) (s : State) : Result :=
  alu .shrl rd (.mem (.indexed dsp rx)) s

/-- `SHRL Rd,#Imm`, OP = 9Ah: R154. -/
def execShrlImm (rd : Reg) (imm : Word) (s : State) : Result :=
  alu .shrl rd (.imm imm) s

/-- `SHRL Rd,Dsp4,FP`, OP = 9Bh: R154. -/
def execShrlFpRel (rd : Reg) (dsp4 : Int) (s : State) : Result :=
  alu .shrl rd (.mem (.fpRel dsp4)) s

/-- `SHRL Rd,Rs`, OP = 9Ch: R154. -/
def execShrlReg (rd : Reg) (rs : Reg) (s : State) : Result :=
  alu .shrl rd (.reg rs) s

/-- `SHRL Rd,#Imm4`, OP = 9Dh: R154. -/
def execShrlImm4 (rd : Reg) (imm4 : Int) (s : State) : Result :=
  alu .shrl rd (.imm4 imm4) s

/-- `SHRL Rd,0,Rx`, OP = 9Eh: R154. -/
def execShrlIndir (rd : Reg) (rx : Reg) (s : State) : Result :=
  alu .shrl rd (.mem (.indir rx)) s

/-- `SHRL Rd,@Rx`, OP = 9Fh: R154. -/
def execShrlByteIndir (rd : Reg) (rx : Reg) (s : State) : Result :=
  alu .shrl rd (.mem (.byteIndir rx)) s

end Sys2Proof.Machine
end

