-- ==== Sys2Proof/Machine/Stack.lean ====
section
/-! DEFINITION. The meanings of PUSH, POP, RET and RETI (45_stack_return.md). -/

namespace Sys2Proof.Machine

/-- `PUSH Rd`, OP = C0h: R186. -/
def execPush (rd : Reg) (s : State) : Result :=
  pushReg rd s

/-- `POP Rd`, OP = C4h: R187. -/
def execPop (rd : Reg) (s : State) : Result :=
  popReg rd s

/-- `RET`, OP = D0h: R189. -/
def execRet (s : State) : Result :=
  returnFromCall s

/-- `RETI`, OP = D4h: R191. -/
def execReti (s : State) : Result :=
  returnFromTrap s

end Sys2Proof.Machine
end

