-- ==== Sys2Proof/Machine/System.lean ====
section
/-! DEFINITION. The meanings of SVC and HALT (46_system.md). -/

namespace Sys2Proof.Machine

/-- `SVC`, OP = F0h: R195. -/
def execSvc (s : State) : Result :=
  supervisorCall s

/-- `HALT`, OP = FFh: R196. -/
def execHalt (s : State) : Result :=
  halt s

end Sys2Proof.Machine
end

