-- ==== Sys2Proof/Machine/Dispatch.lean ====
section
/-! DEFINITION. `exec`: one arm for each constructor of `Instr`, one direct call of its meaning. -/

namespace Sys2Proof.Machine

def exec (i : Instr) (s : State) : Host.Outcome State Fault Refusal :=
  match i with
  | .no => Sys2Proof.Machine.execNo s
  | .ldDirect rd dsp => Sys2Proof.Machine.execLdDirect rd dsp s
  | .ldIndexed rd dsp rx => Sys2Proof.Machine.execLdIndexed rd dsp rx s
  | .ldImm rd imm => Sys2Proof.Machine.execLdImm rd imm s
  | .ldFpRel rd dsp4 => Sys2Proof.Machine.execLdFpRel rd dsp4 s
  | .ldReg rd rs => Sys2Proof.Machine.execLdReg rd rs s
  | .ldImm4 rd imm4 => Sys2Proof.Machine.execLdImm4 rd imm4 s
  | .ldIndir rd rx => Sys2Proof.Machine.execLdIndir rd rx s
  | .ldByteIndir rd rx => Sys2Proof.Machine.execLdByteIndir rd rx s
  | .stDirect rd dsp => Sys2Proof.Machine.execStDirect rd dsp s
  | .stIndexed rd dsp rx => Sys2Proof.Machine.execStIndexed rd dsp rx s
  | .stFpRel rd dsp4 => Sys2Proof.Machine.execStFpRel rd dsp4 s
  | .stIndir rd rx => Sys2Proof.Machine.execStIndir rd rx s
  | .stByteIndir rd rx => Sys2Proof.Machine.execStByteIndir rd rx s
  | .addDirect rd dsp => Sys2Proof.Machine.execAddDirect rd dsp s
  | .addIndexed rd dsp rx => Sys2Proof.Machine.execAddIndexed rd dsp rx s
  | .addImm rd imm => Sys2Proof.Machine.execAddImm rd imm s
  | .addFpRel rd dsp4 => Sys2Proof.Machine.execAddFpRel rd dsp4 s
  | .addReg rd rs => Sys2Proof.Machine.execAddReg rd rs s
  | .addImm4 rd imm4 => Sys2Proof.Machine.execAddImm4 rd imm4 s
  | .addIndir rd rx => Sys2Proof.Machine.execAddIndir rd rx s
  | .addByteIndir rd rx => Sys2Proof.Machine.execAddByteIndir rd rx s
  | .subDirect rd dsp => Sys2Proof.Machine.execSubDirect rd dsp s
  | .subIndexed rd dsp rx => Sys2Proof.Machine.execSubIndexed rd dsp rx s
  | .subImm rd imm => Sys2Proof.Machine.execSubImm rd imm s
  | .subFpRel rd dsp4 => Sys2Proof.Machine.execSubFpRel rd dsp4 s
  | .subReg rd rs => Sys2Proof.Machine.execSubReg rd rs s
  | .subImm4 rd imm4 => Sys2Proof.Machine.execSubImm4 rd imm4 s
  | .subIndir rd rx => Sys2Proof.Machine.execSubIndir rd rx s
  | .subByteIndir rd rx => Sys2Proof.Machine.execSubByteIndir rd rx s
  | .cmpDirect rd dsp => Sys2Proof.Machine.execCmpDirect rd dsp s
  | .cmpIndexed rd dsp rx => Sys2Proof.Machine.execCmpIndexed rd dsp rx s
  | .cmpImm rd imm => Sys2Proof.Machine.execCmpImm rd imm s
  | .cmpFpRel rd dsp4 => Sys2Proof.Machine.execCmpFpRel rd dsp4 s
  | .cmpReg rd rs => Sys2Proof.Machine.execCmpReg rd rs s
  | .cmpImm4 rd imm4 => Sys2Proof.Machine.execCmpImm4 rd imm4 s
  | .cmpIndir rd rx => Sys2Proof.Machine.execCmpIndir rd rx s
  | .cmpByteIndir rd rx => Sys2Proof.Machine.execCmpByteIndir rd rx s
  | .andDirect rd dsp => Sys2Proof.Machine.execAndDirect rd dsp s
  | .andIndexed rd dsp rx => Sys2Proof.Machine.execAndIndexed rd dsp rx s
  | .andImm rd imm => Sys2Proof.Machine.execAndImm rd imm s
  | .andFpRel rd dsp4 => Sys2Proof.Machine.execAndFpRel rd dsp4 s
  | .andReg rd rs => Sys2Proof.Machine.execAndReg rd rs s
  | .andImm4 rd imm4 => Sys2Proof.Machine.execAndImm4 rd imm4 s
  | .andIndir rd rx => Sys2Proof.Machine.execAndIndir rd rx s
  | .andByteIndir rd rx => Sys2Proof.Machine.execAndByteIndir rd rx s
  | .orDirect rd dsp => Sys2Proof.Machine.execOrDirect rd dsp s
  | .orIndexed rd dsp rx => Sys2Proof.Machine.execOrIndexed rd dsp rx s
  | .orImm rd imm => Sys2Proof.Machine.execOrImm rd imm s
  | .orFpRel rd dsp4 => Sys2Proof.Machine.execOrFpRel rd dsp4 s
  | .orReg rd rs => Sys2Proof.Machine.execOrReg rd rs s
  | .orImm4 rd imm4 => Sys2Proof.Machine.execOrImm4 rd imm4 s
  | .orIndir rd rx => Sys2Proof.Machine.execOrIndir rd rx s
  | .orByteIndir rd rx => Sys2Proof.Machine.execOrByteIndir rd rx s
  | .xorDirect rd dsp => Sys2Proof.Machine.execXorDirect rd dsp s
  | .xorIndexed rd dsp rx => Sys2Proof.Machine.execXorIndexed rd dsp rx s
  | .xorImm rd imm => Sys2Proof.Machine.execXorImm rd imm s
  | .xorFpRel rd dsp4 => Sys2Proof.Machine.execXorFpRel rd dsp4 s
  | .xorReg rd rs => Sys2Proof.Machine.execXorReg rd rs s
  | .xorImm4 rd imm4 => Sys2Proof.Machine.execXorImm4 rd imm4 s
  | .xorIndir rd rx => Sys2Proof.Machine.execXorIndir rd rx s
  | .xorByteIndir rd rx => Sys2Proof.Machine.execXorByteIndir rd rx s
  | .addsDirect rd dsp => Sys2Proof.Machine.execAddsDirect rd dsp s
  | .addsIndexed rd dsp rx => Sys2Proof.Machine.execAddsIndexed rd dsp rx s
  | .addsImm rd imm => Sys2Proof.Machine.execAddsImm rd imm s
  | .addsFpRel rd dsp4 => Sys2Proof.Machine.execAddsFpRel rd dsp4 s
  | .addsReg rd rs => Sys2Proof.Machine.execAddsReg rd rs s
  | .addsImm4 rd imm4 => Sys2Proof.Machine.execAddsImm4 rd imm4 s
  | .addsIndir rd rx => Sys2Proof.Machine.execAddsIndir rd rx s
  | .addsByteIndir rd rx => Sys2Proof.Machine.execAddsByteIndir rd rx s
  | .mulDirect rd dsp => Sys2Proof.Machine.execMulDirect rd dsp s
  | .mulIndexed rd dsp rx => Sys2Proof.Machine.execMulIndexed rd dsp rx s
  | .mulImm rd imm => Sys2Proof.Machine.execMulImm rd imm s
  | .mulFpRel rd dsp4 => Sys2Proof.Machine.execMulFpRel rd dsp4 s
  | .mulReg rd rs => Sys2Proof.Machine.execMulReg rd rs s
  | .mulImm4 rd imm4 => Sys2Proof.Machine.execMulImm4 rd imm4 s
  | .mulIndir rd rx => Sys2Proof.Machine.execMulIndir rd rx s
  | .mulByteIndir rd rx => Sys2Proof.Machine.execMulByteIndir rd rx s
  | .divDirect rd dsp => Sys2Proof.Machine.execDivDirect rd dsp s
  | .divIndexed rd dsp rx => Sys2Proof.Machine.execDivIndexed rd dsp rx s
  | .divImm rd imm => Sys2Proof.Machine.execDivImm rd imm s
  | .divFpRel rd dsp4 => Sys2Proof.Machine.execDivFpRel rd dsp4 s
  | .divReg rd rs => Sys2Proof.Machine.execDivReg rd rs s
  | .divImm4 rd imm4 => Sys2Proof.Machine.execDivImm4 rd imm4 s
  | .divIndir rd rx => Sys2Proof.Machine.execDivIndir rd rx s
  | .divByteIndir rd rx => Sys2Proof.Machine.execDivByteIndir rd rx s
  | .modDirect rd dsp => Sys2Proof.Machine.execModDirect rd dsp s
  | .modIndexed rd dsp rx => Sys2Proof.Machine.execModIndexed rd dsp rx s
  | .modImm rd imm => Sys2Proof.Machine.execModImm rd imm s
  | .modFpRel rd dsp4 => Sys2Proof.Machine.execModFpRel rd dsp4 s
  | .modReg rd rs => Sys2Proof.Machine.execModReg rd rs s
  | .modImm4 rd imm4 => Sys2Proof.Machine.execModImm4 rd imm4 s
  | .modIndir rd rx => Sys2Proof.Machine.execModIndir rd rx s
  | .modByteIndir rd rx => Sys2Proof.Machine.execModByteIndir rd rx s
  | .shlaDirect rd dsp => Sys2Proof.Machine.execShlaDirect rd dsp s
  | .shlaIndexed rd dsp rx => Sys2Proof.Machine.execShlaIndexed rd dsp rx s
  | .shlaImm rd imm => Sys2Proof.Machine.execShlaImm rd imm s
  | .shlaFpRel rd dsp4 => Sys2Proof.Machine.execShlaFpRel rd dsp4 s
  | .shlaReg rd rs => Sys2Proof.Machine.execShlaReg rd rs s
  | .shlaImm4 rd imm4 => Sys2Proof.Machine.execShlaImm4 rd imm4 s
  | .shlaIndir rd rx => Sys2Proof.Machine.execShlaIndir rd rx s
  | .shlaByteIndir rd rx => Sys2Proof.Machine.execShlaByteIndir rd rx s
  | .shllDirect rd dsp => Sys2Proof.Machine.execShllDirect rd dsp s
  | .shllIndexed rd dsp rx => Sys2Proof.Machine.execShllIndexed rd dsp rx s
  | .shllImm rd imm => Sys2Proof.Machine.execShllImm rd imm s
  | .shllFpRel rd dsp4 => Sys2Proof.Machine.execShllFpRel rd dsp4 s
  | .shllReg rd rs => Sys2Proof.Machine.execShllReg rd rs s
  | .shllImm4 rd imm4 => Sys2Proof.Machine.execShllImm4 rd imm4 s
  | .shllIndir rd rx => Sys2Proof.Machine.execShllIndir rd rx s
  | .shllByteIndir rd rx => Sys2Proof.Machine.execShllByteIndir rd rx s
  | .shraDirect rd dsp => Sys2Proof.Machine.execShraDirect rd dsp s
  | .shraIndexed rd dsp rx => Sys2Proof.Machine.execShraIndexed rd dsp rx s
  | .shraImm rd imm => Sys2Proof.Machine.execShraImm rd imm s
  | .shraFpRel rd dsp4 => Sys2Proof.Machine.execShraFpRel rd dsp4 s
  | .shraReg rd rs => Sys2Proof.Machine.execShraReg rd rs s
  | .shraImm4 rd imm4 => Sys2Proof.Machine.execShraImm4 rd imm4 s
  | .shraIndir rd rx => Sys2Proof.Machine.execShraIndir rd rx s
  | .shraByteIndir rd rx => Sys2Proof.Machine.execShraByteIndir rd rx s
  | .shrlDirect rd dsp => Sys2Proof.Machine.execShrlDirect rd dsp s
  | .shrlIndexed rd dsp rx => Sys2Proof.Machine.execShrlIndexed rd dsp rx s
  | .shrlImm rd imm => Sys2Proof.Machine.execShrlImm rd imm s
  | .shrlFpRel rd dsp4 => Sys2Proof.Machine.execShrlFpRel rd dsp4 s
  | .shrlReg rd rs => Sys2Proof.Machine.execShrlReg rd rs s
  | .shrlImm4 rd imm4 => Sys2Proof.Machine.execShrlImm4 rd imm4 s
  | .shrlIndir rd rx => Sys2Proof.Machine.execShrlIndir rd rx s
  | .shrlByteIndir rd rx => Sys2Proof.Machine.execShrlByteIndir rd rx s
  | .jzDirect dsp => Sys2Proof.Machine.execJzDirect dsp s
  | .jzIndexed dsp rx => Sys2Proof.Machine.execJzIndexed dsp rx s
  | .jcDirect dsp => Sys2Proof.Machine.execJcDirect dsp s
  | .jcIndexed dsp rx => Sys2Proof.Machine.execJcIndexed dsp rx s
  | .jmDirect dsp => Sys2Proof.Machine.execJmDirect dsp s
  | .jmIndexed dsp rx => Sys2Proof.Machine.execJmIndexed dsp rx s
  | .joDirect dsp => Sys2Proof.Machine.execJoDirect dsp s
  | .joIndexed dsp rx => Sys2Proof.Machine.execJoIndexed dsp rx s
  | .jgtDirect dsp => Sys2Proof.Machine.execJgtDirect dsp s
  | .jgtIndexed dsp rx => Sys2Proof.Machine.execJgtIndexed dsp rx s
  | .jgeDirect dsp => Sys2Proof.Machine.execJgeDirect dsp s
  | .jgeIndexed dsp rx => Sys2Proof.Machine.execJgeIndexed dsp rx s
  | .jleDirect dsp => Sys2Proof.Machine.execJleDirect dsp s
  | .jleIndexed dsp rx => Sys2Proof.Machine.execJleIndexed dsp rx s
  | .jltDirect dsp => Sys2Proof.Machine.execJltDirect dsp s
  | .jltIndexed dsp rx => Sys2Proof.Machine.execJltIndexed dsp rx s
  | .jnzDirect dsp => Sys2Proof.Machine.execJnzDirect dsp s
  | .jnzIndexed dsp rx => Sys2Proof.Machine.execJnzIndexed dsp rx s
  | .jncDirect dsp => Sys2Proof.Machine.execJncDirect dsp s
  | .jncIndexed dsp rx => Sys2Proof.Machine.execJncIndexed dsp rx s
  | .jnmDirect dsp => Sys2Proof.Machine.execJnmDirect dsp s
  | .jnmIndexed dsp rx => Sys2Proof.Machine.execJnmIndexed dsp rx s
  | .jnoDirect dsp => Sys2Proof.Machine.execJnoDirect dsp s
  | .jnoIndexed dsp rx => Sys2Proof.Machine.execJnoIndexed dsp rx s
  | .jhiDirect dsp => Sys2Proof.Machine.execJhiDirect dsp s
  | .jhiIndexed dsp rx => Sys2Proof.Machine.execJhiIndexed dsp rx s
  | .jlsDirect dsp => Sys2Proof.Machine.execJlsDirect dsp s
  | .jlsIndexed dsp rx => Sys2Proof.Machine.execJlsIndexed dsp rx s
  | .jmpDirect dsp => Sys2Proof.Machine.execJmpDirect dsp s
  | .jmpIndexed dsp rx => Sys2Proof.Machine.execJmpIndexed dsp rx s
  | .callDirect dsp => Sys2Proof.Machine.execCallDirect dsp s
  | .callIndexed dsp rx => Sys2Proof.Machine.execCallIndexed dsp rx s
  | .inDirect rd dsp => Sys2Proof.Machine.execInDirect rd dsp s
  | .inIndir rd rx => Sys2Proof.Machine.execInIndir rd rx s
  | .inByteIndir rd rx => Sys2Proof.Machine.execInByteIndir rd rx s
  | .outDirect rd dsp => Sys2Proof.Machine.execOutDirect rd dsp s
  | .outIndir rd rx => Sys2Proof.Machine.execOutIndir rd rx s
  | .outByteIndir rd rx => Sys2Proof.Machine.execOutByteIndir rd rx s
  | .push rd => Sys2Proof.Machine.execPush rd s
  | .pop rd => Sys2Proof.Machine.execPop rd s
  | .ret => Sys2Proof.Machine.execRet s
  | .reti => Sys2Proof.Machine.execReti s
  | .svc => Sys2Proof.Machine.execSvc s
  | .halt => Sys2Proof.Machine.execHalt s

end Sys2Proof.Machine
end

