-- ==== Sys2Proof/Machine/Fetch.lean ====
section
/-! DEFINITION. Fetching and decoding one instruction (30_encoding.md R87), and placing one where it is fetched. -/

namespace Sys2Proof.Machine

/-- The second word, when the first one says there is one (30_encoding.md R86, R87). -/
def fetchSecond (w : Word) (s : State) : Except Stop Word :=
  if wordCount w = 2 then memRead .word (s.pc + 2) s else .ok 0

/-- The instruction at pc, or why there is none (30_encoding.md R87, R104, R105, R111). -/
def fetch (s : State) : Except Stop Instr :=
  match memRead .word s.pc s with
  | .error e => .error e
  | .ok w =>
    match fetchSecond w s with
    | .error e => .error e
    | .ok w2 =>
      match decode w w2 with
      | .instr i => .ok i
      | .undefined => .error (.exc .undefinedInstruction)
      | .rejected why => .error (.refuse (.encoding why))

/-- Stores bytes at consecutive addresses of the memory space, wrapping after FFFFh. -/
def placeBytes (m : Memory) (a : Word) : List Byte → Memory
  | [] => m
  | b :: rest => placeBytes (Memory.write m a.toNat b) (a + 1) rest

/-- Puts bytes into RAM at pc and detaches the IPL ROM, which cannot be written and whose open range could hide them
(20_memory.md R61). -/
def placeAtPc (s : State) (bytes : List Byte) : State :=
  (s.setMem (placeBytes s.mem s.pc bytes)).setMmu { s.mmu with iplDetached := true }

end Sys2Proof.Machine
end

