-- ==== Sys2Proof/Machine/Step.lean ====
section
/-! DEFINITION. One step of the machine. -/

namespace Sys2Proof.Machine

/-- The instruction at pc: fetched, decoded and executed (30_encoding.md R87); an exception of the fetch is taken from
the state before it, a first word being two bytes long (60_exceptions.md R217). -/
def runInstr (s : State) : Result :=
  match fetch s with
  | .ok i => exec i s
  | .error e => settle s (s.pc + 2) (.error e)

/-- One step: none from the halted state (46_system.md R196), refused with the MMU on (20_memory.md R62), else an
accepted device interrupt (60_exceptions.md R211) or else the instruction at pc. -/
def step (s : State) : Host.Outcome State Fault Refusal :=
  if s.halted then .fault .halted
  else if mmuOn s then .refused .mmuEnabled
  else
    match acceptedInterrupt s with
    | some k => finishStep (takeInterrupt k s)
    | none => finishStep (runInstr s)

/-- `s` with an instruction, given as the opcode table numbers its bits, where the next step fetches it
(notes/assumptions/8.md). -/
def State.withFetchWord (s : State) (nbits w : Nat) : State := placeAtPc s (tableWordBytes nbits w)

end Sys2Proof.Machine
end

