-- ==== Sys2Proof/Machine/Timing.lean ====
section
/-! DEFINITION. The state-count table (70_reset_and_hazards.md R265 to R268), data for a cost function and no part of
the state. -/

namespace Sys2Proof.Machine

/-- The columns Drct to B Indr of a row whose Direct form takes `d` states and whose Register form takes `r` (R265): Imm
2 less than Direct, Imm4 3 less, Indr and B Indr 1 less. -/
def operandStates (d r : Nat) : Operand → Nat
  | .mem (.direct _) => d
  | .mem (.indexed _ _) => d
  | .imm _ => d - 2
  | .mem (.fpRel _) => d
  | .reg _ => r
  | .imm4 _ => d - 3
  | .mem (.indir _) => d - 1
  | .mem (.byteIndir _) => d - 1

/-- The columns of the flag-changing rows (R265); `n` is a shift's count (R267). -/
def aluStates (op : AluOp) (n : Nat) (x : Operand) : Nat :=
  match op with
  | .add => operandStates 7 5 x
  | .sub => operandStates 7 5 x
  | .cmp => operandStates 7 5 x
  | .and => operandStates 7 5 x
  | .or => operandStates 7 5 x
  | .xor => operandStates 7 5 x
  | .adds => operandStates 8 6 x
  | .mul => operandStates 57 55 x
  | .div => operandStates 73 71 x
  | .mod => operandStates 73 71 x
  | .shla => operandStates 8 6 x + n
  | .shll => operandStates 8 6 x + n
  | .shra => operandStates 8 6 x + n
  | .shrl => operandStates 8 6 x + n

/-- The columns of the ST row (R265). -/
def storeStates : MemEa → Nat
  | .direct _ => 6
  | .indexed _ _ => 6
  | .fpRel _ => 6
  | .indir _ => 5
  | .byteIndir _ => 5

/-- The columns of the IN and OUT rows whose Direct form takes `d` states (R265). -/
def ioStates (d : Nat) : IoEa → Nat
  | .direct _ => d
  | .indir _ => d - 1
  | .byteIndir _ => d - 1

/-- The states of a jump: 4 not taken, 5 taken, and 5 for JMP (R265, R266). -/
def jumpStates (cond : Cond) (taken : Bool) : Nat :=
  if cond = .always then 5 else if taken then 5 else 4

/-- The number of states of an instruction (R265 to R268): `taken` is whether a jump is taken, `n` a shift's count. -/
def stateCount (i : Instr) (taken : Bool) (n : Nat) : Nat :=
  match i.form with
  | .no => 3
  | .ld _ x => operandStates 7 4 x
  | .st _ x => storeStates x
  | .alu op _ x => aluStates op n x
  | .jump cond _ => jumpStates cond taken
  | .call _ => 6
  | .inp _ x => ioStates 7 x
  | .out _ x => ioStates 6 x
  | .push _ => 5
  | .pop _ => 6
  | .ret => 6
  | .reti => 9
  | .svc => 12
  | .halt => 5

end Sys2Proof.Machine
end

