-- ==== Sys2Proof/Safety.lean ====
section
/-! DEFINITION. The terms the statements use: what an instruction leaves unchanged, when its operands can be read, when
trap entry can complete and what it leaves, and the invariant of every step. -/

namespace Sys2Proof.Machine

/-! ## Registers -/

/-- The sixteen register numbers name these physical registers, and FLAG (10_state.md R20, R24). -/
inductive Phys where
  | g (n : Fin 12)
  | fp
  | ssp
  | usp
deriving DecidableEq, Repr

/-- The physical register a name stands for with the given P; none for FLAG (10_state.md R23, R24). -/
def physOf (r : Reg) (p : Bool) : Option Phys :=
  match r with
  | .g n => some (.g n)
  | .fp => some .fp
  | .sp => if p then some .ssp else some .usp
  | .usp => some .usp
  | .flag => none

/-- The content of a physical register. -/
def physRead (q : Phys) (s : State) : Word :=
  match q with
  | .g n => s.g[n]
  | .fp => s.fp
  | .ssp => s.ssp
  | .usp => s.usp

/-! ## Frames -/

/-- Every physical register but `d` holds what it held. -/
def RegsKeptBut (d : Option Phys) (s t : State) : Prop := ∀ q, d ≠ some q → physRead q t = physRead q s

/-- Every byte of the memory space reads as before. -/
def BytesKept (s t : State) : Prop := ∀ a, byteAt t a = byteAt s a

/-- The MMU's registers, the devices, the halted condition and the draw are as before. -/
def SystemKept (s t : State) : Prop := t.mmu = s.mmu ∧ t.io = s.io ∧ t.halted = s.halted ∧ t.draws = s.draws

/-- E, P and I are as before. -/
def ModeKept (s t : State) : Prop := t.flag.e = s.flag.e ∧ t.flag.p = s.flag.p ∧ t.flag.i = s.flag.i

/-! ## Operands -/

/-- The big-endian word at an even address (20_memory.md R51). -/
def wordAt (s : State) (a : Word) : Word := joinBytes (byteAt s a.toNat) (byteAt s (a.toNat + 1))

/-- A memory form's access raises nothing: the MMU is off, and a word's address is even. -/
def eaReady (x : MemEa) (s : State) : Bool :=
  !mmuOn s && (decide (memWidth x = .byte) || !isOdd (memAddr x s))

/-- The operand can be read. -/
def operandReady (x : Operand) (s : State) : Bool :=
  match x with
  | .mem ea => eaReady ea s
  | .imm _ => true
  | .reg _ => true
  | .imm4 _ => true

/-- The operand's value when it can be read (30_encoding.md R90). -/
def operandWord (x : Operand) (s : State) : Word :=
  match x with
  | .mem ea =>
    match memWidth ea with
    | .word => wordAt s (memAddr ea s)
    | .byte => (byteAt s (memAddr ea s).toNat).setWidth 16
  | .imm v => v
  | .reg rs => readReg rs s
  | .imm4 v => BitVec.ofInt 16 v

/-- A push completes: the MMU is off, SP is even, and the slot below it is no ROM. -/
def pushReady (s : State) : Bool :=
  !mmuOn s && !isOdd (readReg .sp s) && !romTouched .word (readReg .sp s - 2).toNat s

/-- A pop completes: the MMU is off and SP is even. -/
def popReady (s : State) : Bool := !mmuOn s && !isOdd (readReg .sp s)

/-- An I/O access is allowed and has a meaning: P or I, an address up to 00FFh, an even one for a word. -/
def ioReady (x : IoEa) (s : State) : Bool :=
  ioAllowed s && decide ((ioAddr x s).toNat ≤ 255) && (decide (ioWidth x = .byte) || !isOdd (ioAddr x s))

/-- A write would re-attach the IPL ROM: bit 0 of port F1h as 0, after it was 1 (20_memory.md R61). -/
def reattaches (x : IoEa) (v : Word) (s : State) : Bool :=
  s.mmu.iplDetached && !v.getLsbD 0 &&
    match ioWidth x with
    | .word => ioAddr x s == 0xF0
    | .byte => ioAddr x s == 0xF1

/-- The byte an OUT of `v` puts at an I/O address, if it writes one there (20_memory.md R59). -/
def outByteAt (x : IoEa) (v : Word) (s : State) (k : Nat) : Option Byte :=
  match ioWidth x with
  | .word =>
    if k = (ioAddr x s).toNat then some (hiByte v)
    else if k = (ioAddr x s).toNat + 1 then some (loByte v) else none
  | .byte => if k = (ioAddr x s).toNat then some (loByte v) else none

/-- An OUT of `v` writes a byte with bit `b` set to an I/O address. -/
def outSets (x : IoEa) (v : Word) (s : State) (k b : Nat) : Bool := (outByteAt x v s k).any fun c => c.getLsbD b

/-! ## Traps -/

/-- Trap entry completes: the MMU is off, SSP is even, and the two slots below it are no ROM. -/
def trapReady (s : State) : Bool :=
  !mmuOn s && !isOdd s.ssp && !romTouched .word (s.ssp - 2).toNat s && !romTouched .word (s.ssp - 4).toNat s

/-- What trap entry through vector number `k` leaves, started in `s` with the saved PC `spc` and the MMU's registers as
`m` (60_exceptions.md R215, R216): P = 1 and E = 0, the frame on the system stack, PC from the vector, all else as it
was. -/
structure TrapEntered (k : Nat) (spc : Word) (m : Mmu) (s t : State) : Prop where
  flag : t.flag = { s.flag with e := false, p := true }
  ssp : t.ssp = s.ssp - 4
  savedPc : wordAt t (s.ssp - 2) = spc
  savedFlag : wordAt t (s.ssp - 4) = s.flag.toWord
  handler : t.pc = wordAt t (vectorAddr k)
  regs : RegsKeptBut (some .ssp) s t
  bytes : ∀ a, a ≠ (s.ssp - 2).toNat → a ≠ (s.ssp - 2).toNat + 1 → a ≠ (s.ssp - 4).toNat →
    a ≠ (s.ssp - 4).toNat + 1 → byteAt t a = byteAt s a
  mmu : t.mmu = m
  io : t.io = s.io
  halted : t.halted = s.halted
  draws : t.draws = s.draws

/-- An outcome is trap entry from `s` through vector number `k` with one of the two saved PCs (60_exceptions.md R217). -/
def Traps (r : Result) (k : Nat) (spc1 spc2 : Word) (m : Mmu) (s : State) : Prop :=
  ∃ t spc, r = .next t ∧ (spc = spc1 ∨ spc = spc2) ∧ TrapEntered k spc m s t

/-- The MMU's registers with the violation cause R = 0 recorded (20_memory.md R54, R64). -/
def oddCause (s : State) : Mmu := { s.mmu with cause := false }

/-! ## Steps -/

/-- The next step fetches an instruction: the CPU runs, the MMU is off, PC is even and no interrupt is accepted. -/
def fetchReady (s : State) : Bool :=
  !s.halted && !mmuOn s && !isOdd s.pc && (acceptedInterrupt s).isNone

/-- The second word of the instruction at pc, 0 for a one-word one (30_encoding.md R86, R87). -/
def secondWord (s : State) : Word := if wordCount (wordAt s s.pc) = 2 then wordAt s (s.pc + 2) else 0

/-- The invariant of every step: memory and the output registers are in their canonical form within their address
spaces, and an output register holds only bits its port's layout draws. -/
def stateInv (s : State) : Bool :=
  Memory.wf 65536 s.mem && Memory.wf 256 s.io.latch && s.io.latch.all fun c => c.2 &&& ~~~ writeMask c.1 == 0

/-- The instruction is one of the forms the spec gives no meaning in this state: FLAG as the destination of a result,
PUSH or POP of the stack pointer in use, an I/O access at an address without meaning, a write into the ROM or its
re-attachment (93_implementation_defined.md U5, U6, U7, U10). -/
def givenNoMeaning (i : Instr) (s : State) : Bool :=
  match i.form with
  | .no => false
  | .ld _ _ => false
  | .st _ x => eaReady x s && romTouched (memWidth x) (memAddr x s).toNat s
  | .alu op rd _ => writesRd op && decide (rd = .flag)
  | .jump _ _ => false
  | .call _ => popReady s && !pushReady s
  | .inp _ x => ioAllowed s && !ioReady x s
  | .out rd x => ioAllowed s && (!ioReady x s || reattaches x (readReg rd s) s)
  | .push rd => namesStackPointer rd s || (popReady s && !pushReady s)
  | .pop rd => namesStackPointer rd s
  | .ret => false
  | .reti => false
  | .svc => false
  | .halt => false

end Sys2Proof.Machine
end

