-- ==== Sys2Proof/Certificates/Slice0/Obligations.lean ====
section
/-! DEFINITION. The statements for the provers. Where a clause rests on a decision of the spec or a choice of the model,
the docstring names it. -/

open Sys2Proof Sys2Proof.Machine

/-! ## Reset -/

/-- 10_state.md R43: right after reset the IPL ROM is in the map (port F0h bit 0 is 0), the RN4020-Cmd bits FHCS are
0001, and RN4020-RAM is not affected by reset, which does affect other device registers (which ones the sheet does not
say: an output register other than port 2Fh). -/
def Obligations.ResetLeavesWhatTheSheetStates : Prop :=
  State.reset.mmu.iplDetached = false ∧ Io.rn4020Cmd State.reset.io = 1 ∧
    (∀ s, (State.warmReset s).mmu.iplDetached = false ∧ Io.rn4020Cmd (State.warmReset s).io = 1 ∧
      Io.rn4020Ram (State.warmReset s).io = Io.rn4020Ram s.io) ∧
    ∃ s k, k ≠ 0x2F ∧ Memory.read (State.warmReset s).io.latch k ≠ Memory.read s.io.latch k

/-- A reset of a running machine differs from `State.reset` in RN4020-RAM and the model's own draw counter only: the
record of accesses, the enabled interrupt sources and the started SD transfer are as after reset too. That RAM, PC,
FLAG, the registers and the other ports take the values of `State.reset`, and that the draw counter goes on, is the
model's choice (notes/assumptions/1.md, 2.md, 3.md, 5.md, 7.md, 49.md). -/
def Obligations.WarmResetIsResetButForRam : Prop :=
  ∀ s : State, ((State.warmReset s).setIo Io.reset).setDraws 0 = State.reset ∧
    (State.warmReset s).draws = s.draws + 1 ∧
    (∀ a, a ≠ 0x2F → Memory.read (State.warmReset s).io.latch a = Memory.read State.reset.io.latch a) ∧
    (State.warmReset s).io.irqEnabled = State.reset.io.irqEnabled ∧
    (State.warmReset s).io.usdStarted = State.reset.io.usdStarted ∧
    (State.warmReset s).io.history = State.reset.io.history ∧ stateInv (State.warmReset s) = true

/-- The invariant of every step holds after reset. -/
def Obligations.ResetMeetsTheStepInvariant : Prop := stateInv State.reset = true

/-! ## Encoding -/

/-- Decoding the words of a well-formed instruction gives it back, for every row of the table and every operand. -/
def Obligations.DecodeOfEncodeIsTheInstruction : Prop :=
  ∀ (i : Instr) (w2 : Word), i.wf = true →
    decode ((encode i).headD 0) ((encode i).getD 1 w2) = .instr i ∧
      (encode i).length = wordCount ((encode i).headD 0)

/-- Every word that decodes to an instruction is that instruction's own encoding, the second word counted only where
there is one, and the instruction is well formed: no word has two meanings and no bit of one is ignored. -/
def Obligations.EncodeOfDecodeIsTheWords : Prop :=
  ∀ (w w2 : Word) (i : Instr), decode w w2 = .instr i →
    i.wf = true ∧ encode i = if wordCount w = 2 then [w, w2] else [w]

/-- First words written out from the encoding tables of 30_encoding.md R99 to R103, one or more of each family, decode to
the instructions they stand for. -/
def Obligations.SampleWordsDecode : Prop :=
  decode 0x0000 0 = .instr .no ∧ decode 0x0B0F 0 = .instr (.ldFpRel (.g 0) (-2)) ∧
    decode 0x0A10 0x1234 = .instr (.ldImm (.g 1) 0x1234) ∧ decode 0x1332 0 = .instr (.stFpRel (.g 3) 4) ∧
    decode 0x1DF1 0 = .instr (.addImm4 .flag 1) ∧ decode 0x2D2E 0 = .instr (.cmpImm4 (.g 2) (-2)) ∧
    decode 0x9F12 0 = .instr (.shrlByteIndir (.g 1) (.g 2)) ∧ decode 0xA0E0 0x0200 = .instr (.jlsDirect 0x0200) ∧
    decode 0xA1F1 0x0100 = .instr (.jmpIndexed 0x0100 (.g 1)) ∧
    decode 0xA90D 0x0300 = .instr (.callIndexed 0x0300 .sp) ∧ decode 0xB7E9 0 = .instr (.inByteIndir .usp (.g 9)) ∧
    decode 0xB810 0x0002 = .instr (.outDirect (.g 1) 0x0002) ∧ decode 0xC0C0 0 = .instr (.push .fp) ∧
    decode 0xC4F0 0 = .instr (.pop .flag) ∧ decode 0xD000 0 = .instr .ret ∧ decode 0xD4F0 0 = .instr .reti ∧
    decode 0xF000 0 = .instr .svc ∧ decode 0xFF00 0 = .instr .halt

/-- The undefined first words are exactly those whose OP is in the list of 30_encoding.md R104. -/
def Obligations.UndefinedWordsAreTheEmptyCells : Prop :=
  ∀ w w2 : Word, decode w w2 = .undefined ↔
    let op := (opField w).toNat
    (0x01 ≤ op ∧ op ≤ 0x07) ∨ op = 0x12 ∨ op = 0x14 ∨ op = 0x15 ∨ (0x68 ≤ op ∧ op ≤ 0x7F) ∨ (0xA2 ≤ op ∧ op ≤ 0xA5) ∨
      op = 0xA7 ∨ (0xAA ≤ op ∧ op ≤ 0xAD) ∨ op = 0xAF ∨ (0xB1 ≤ op ∧ op ≤ 0xB5) ∨ (0xB9 ≤ op ∧ op ≤ 0xBD) ∨
      (0xC1 ≤ op ∧ op ≤ 0xC3) ∨ (0xC5 ≤ op ∧ op ≤ 0xCF) ∨ (0xD1 ≤ op ∧ op ≤ 0xD3) ∨ (0xD5 ≤ op ∧ op ≤ 0xEF) ∨
      (0xF1 ≤ op ∧ op ≤ 0xFE)

/-- The refused first words of 30_encoding.md R105, each with its reason: the conflicted OP values, the jump condition
Dh, RETI's Rd, a fixed field that is not 0. -/
def Obligations.RefusedWordsAreRefused : Prop :=
  ∀ w w2 : Word,
    let op := (opField w).toNat
    (op = 0xA6 → decode w w2 = .rejected .jumpIndirect) ∧ (op = 0xAE → decode w w2 = .rejected .callIndirect) ∧
      ((op = 0xA0 ∨ op = 0xA1) → rdField w = 0xD → decode w w2 = .rejected .jumpConditionD) ∧
      (op = 0xD4 → rdField w ≠ 0xF → decode w w2 = .rejected .retiRd) ∧
      (op = 0xD4 → rdField w = 0xF → rxField w ≠ 0 → decode w w2 = .rejected .fixedField) ∧
      ((op = 0x00 ∨ op = 0xD0 ∨ op = 0xF0 ∨ op = 0xFF ∨ op = 0xA8) → (rdField w ≠ 0 ∨ rxField w ≠ 0) →
        decode w w2 = .rejected .fixedField) ∧
      (op = 0xA9 → rdField w ≠ 0 → decode w w2 = .rejected .fixedField) ∧
      ((op = 0xC0 ∨ op = 0xC4 ∨ op = 0xB0 ∨ op = 0xB8 ∨ op = 0x10 ∨ op = 0x08 ∨ op = 0x0A) → rxField w ≠ 0 →
        decode w w2 = .rejected .fixedField) ∧
      (((0x18 ≤ op ∧ op < 0x68) ∨ (0x80 ≤ op ∧ op < 0xA0)) → (op % 8 = 0 ∨ op % 8 = 2) → rxField w ≠ 0 →
        decode w w2 = .rejected .fixedField) ∧
      (op = 0xA0 → rdField w ≠ 0xD → rxField w ≠ 0 → decode w w2 = .rejected .fixedField)

/-! ## Registers and FLAG -/

/-- 10_state.md R24: what each register number reads. -/
def Obligations.RegisterNumbersReadTheirRegisters : Prop :=
  ∀ (s : State) (i : BitVec 4),
    let v := readReg (Reg.ofField i) s
    (∀ h : i.toNat < 12, v = s.g[i.toNat]) ∧ (i = 0xC → v = s.fp) ∧
      (i = 0xD → v = if s.flag.p then s.ssp else s.usp) ∧ (i = 0xE → v = s.usp) ∧
      (i = 0xF → (∀ k, (8 ≤ k ∨ k = 4) → v.getLsbD k = false) ∧ v.getLsbD 7 = s.flag.e ∧ v.getLsbD 6 = s.flag.p ∧
        v.getLsbD 5 = s.flag.i ∧ v.getLsbD 3 = s.flag.v ∧ v.getLsbD 2 = s.flag.c ∧ v.getLsbD 1 = s.flag.s ∧
        v.getLsbD 0 = s.flag.z) ∧
      (Reg.ofField i).toField = i

/-- 10_state.md R25: what each register number writes, and that a write changes no other state. -/
def Obligations.RegisterNumbersWriteTheirRegisters : Prop :=
  ∀ (s : State) (i : BitVec 4) (v : Word),
    let t := writeReg (Reg.ofField i) v s
    (∀ h : i.toNat < 12, t = { s with g := s.g.set i.toNat v }) ∧ (i = 0xC → t = { s with fp := v }) ∧
      (i = 0xD → t = if s.flag.p then { s with ssp := v } else { s with usp := v }) ∧
      (i = 0xE → t = { s with usp := v }) ∧ (i = 0xF → t = { s with flag := s.flag.write v })

/-- The write filter of FLAG: in privileged mode all seven bits are taken from the word, in user mode only V, C, S, Z.
The user-mode half is stated by the sheet for RETI only; for every other write it is the spec's decision D22
(notes/assumptions/25.md). -/
def Obligations.FlagWritesAreFiltered : Prop :=
  ∀ (f : Flags) (v : Word),
    (f.p = true → (f.write v).toWord = v &&& 0x00EF) ∧
      (f.p = false → (f.write v).toWord = (f.toWord &&& 0x00E0) ||| (v &&& 0x000F))

/-! ## Memory -/

/-- 20_memory.md R55: a byte access may use any address, and no alignment fault exists for bytes. That the byte read is
zero-extended and that bits 7 to 0 are stored (R53) is the spec's decision D4 (notes/assumptions/11.md). -/
def Obligations.ByteAccessesHaveNoAlignmentFault : Prop :=
  ∀ (a v : Word) (s : State),
    (∀ k, memRead .byte a s ≠ .error (.exc k) ∧ memWrite .byte a v s ≠ .error (.exc k)) ∧
      (mmuOn s = false → memRead .byte a s = .ok ((byteAt s a.toNat).setWidth 16)) ∧
      (mmuOn s = false → romAt s a.toNat = false → ∃ t, memWrite .byte a v s = .ok t ∧ byteAt t a.toNat = loByte v ∧
        ∀ x, x ≠ a.toNat → byteAt t x = byteAt s x)

/-- A word access reads and writes big-endian at an even address and raises the memory violation with R = 0 at an odd
one, in every mode. The byte order of memory is the spec's decision D1 and the unconditional check D2
(notes/assumptions/9.md, 10.md). -/
def Obligations.WordAccessesAreBigEndianAndAligned : Prop :=
  ∀ (a v : Word) (s : State),
    (isOdd a = true → memRead .word a s = .error (.exc (.memoryViolation .oddAddress)) ∧
      memWrite .word a v s = .error (.exc (.memoryViolation .oddAddress))) ∧
      (isOdd a = false → mmuOn s = false →
        (∃ r, memRead .word a s = .ok r ∧ hiByte r = byteAt s a.toNat ∧ loByte r = byteAt s (a.toNat + 1)) ∧
        (romTouched .word a.toNat s = false → ∃ t, memWrite .word a v s = .ok t ∧ memRead .word a t = .ok v ∧
          byteAt t a.toNat = hiByte v ∧ byteAt t (a.toNat + 1) = loByte v ∧
          ∀ x, x ≠ a.toNat → x ≠ a.toNat + 1 → byteAt t x = byteAt s x))

/-- The IPL ROM: where it is attached its bytes are read, a write of a byte of it is refused and so is a write of a word
with a byte in it, and once it is detached every address reads the RAM. The range is the open parameter IPL_ROM, of
which only that the start address lies in it is known (R261; D32, D33, notes/assumptions/4.md). -/
def Obligations.AttachedRomHidesTheRam : Prop :=
  ∀ (a v : Word) (s : State), mmuOn s = false →
    (s.mmu.iplDetached = false → Config.romBase ≤ a.toNat → a.toNat < Config.romLimit →
      memRead .byte a s = .ok ((Config.iplRom a.toNat).setWidth 16) ∧
        memWrite .byte a v s = .error (.refuse .romWrite)) ∧
      (∀ x, s.mmu.iplDetached = false → isOdd a = false → x = a.toNat ∨ x = a.toNat + 1 → Config.romBase ≤ x →
        x < Config.romLimit → memWrite .word a v s = .error (.refuse .romWrite)) ∧
      (s.mmu.iplDetached = true ∨ a.toNat < Config.romBase ∨ Config.romLimit ≤ a.toNat →
        memRead .byte a s = .ok ((Memory.read s.mem a.toNat).setWidth 16)) ∧
      Config.romBase ≤ State.reset.pc.toNat ∧ State.reset.pc.toNat < Config.romLimit

/-- The operand value of each of the eight forms (30_encoding.md R90): addresses wrap modulo 65536 (the spec's decision
D5, notes/assumptions/12.md), a byte is zero-extended (D4, notes/assumptions/11.md). -/
def Obligations.OperandFormsGiveTheirValues : Prop :=
  ∀ (s : State) (d v : Word) (r : Reg) (k : Int), mmuOn s = false →
    (isOdd d = false → operandValue (.mem (.direct d)) s = .ok (wordAt s d)) ∧
      (isOdd (d + readReg r s) = false →
        operandValue (.mem (.indexed d r)) s = .ok (wordAt s (d + readReg r s))) ∧
      operandValue (.imm v) s = .ok v ∧
      (isOdd (s.fp + BitVec.ofInt 16 k) = false →
        operandValue (.mem (.fpRel k)) s = .ok (wordAt s (s.fp + BitVec.ofInt 16 k))) ∧
      operandValue (.reg r) s = .ok (readReg r s) ∧
      operandValue (.imm4 k) s = .ok (BitVec.ofInt 16 k) ∧
      (isOdd (readReg r s) = false → operandValue (.mem (.indir r)) s = .ok (wordAt s (readReg r s))) ∧
      ∃ b, operandValue (.mem (.byteIndir r)) s = .ok b ∧ b.toNat = (byteAt s (readReg r s).toNat).toNat

/-! ## NO, LD, ST -/

/-- 40_no_load_store.md R121: NO is the word 0000h and does nothing but advance PC; a word 00xyh with x or y non-zero is
refused; it takes 3 states. -/
def Obligations.NoOperationOnlyAdvancesPc : Prop :=
  encode .no = [0x0000] ∧ (∀ s, exec .no s = .next { s with pc := s.pc + 2 }) ∧
    (∀ w w2 : Word, opField w = 0 → w ≠ 0 → decode w w2 = .rejected .fixedField) ∧
    (∀ taken n, stateCount .no taken n = 3) ∧
    ∀ s, fetchReady s = true → wordAt s s.pc = 0 → step s = .next (endStep { s with pc := s.pc + 2 })

/-- LD in its eight forms: Rd takes the operand value and nothing else changes but PC; with Rd = FLAG the value goes
through FLAG's write filter (the spec's decision D22, notes/assumptions/25.md). -/
def Obligations.LoadPutsTheOperandInItsRegister : Prop :=
  ∀ (rd : Reg) (x : Operand) (s : State), operandReady x s = true →
    ∃ t, exec (.ofLd rd x) s = .next t ∧
      (∀ q, physOf rd s.flag.p = some q → physRead q t = operandWord x s) ∧ RegsKeptBut (physOf rd s.flag.p) s t ∧
      t.flag = (if rd = .flag then s.flag.write (operandWord x s) else s.flag) ∧ t.pc = s.pc + operandBytes x ∧
      BytesKept s t ∧ SystemKept s t

/-- ST in its five forms: a word form stores Rd at its address, the upper byte first; the byte form stores bits 7 to 0;
every other byte, every register and FLAG are as before. A store into the attached ROM is refused and is not covered
here (notes/assumptions/4.md). -/
def Obligations.StoreWritesItsBytesOnly : Prop :=
  ∀ (rd : Reg) (x : MemEa) (s : State), eaReady x s = true → romTouched (memWidth x) (memAddr x s).toNat s = false →
    ∃ t, exec (.ofSt rd x) s = .next t ∧
      (memWidth x = .word → byteAt t (memAddr x s).toNat = hiByte (readReg rd s) ∧
        byteAt t ((memAddr x s).toNat + 1) = loByte (readReg rd s) ∧
        ∀ a, a ≠ (memAddr x s).toNat → a ≠ (memAddr x s).toNat + 1 → byteAt t a = byteAt s a) ∧
      (memWidth x = .byte → byteAt t (memAddr x s).toNat = loByte (readReg rd s) ∧
        ∀ a, a ≠ (memAddr x s).toNat → byteAt t a = byteAt s a) ∧
      RegsKeptBut none s t ∧ t.flag = s.flag ∧ t.pc = s.pc + memBytes x ∧ SystemKept s t

/-- A word stored by ST is what a LD of the same address then loads, whatever the two forms are. -/
def Obligations.LoadAfterStoreGivesTheValue : Prop :=
  ∀ (rs rd : Reg) (x y : MemEa) (s t : State), eaReady x s = true →
    romTouched (memWidth x) (memAddr x s).toNat s = false → memWidth x = .word → memWidth y = .word → rd ≠ .flag →
    exec (.ofSt rs x) s = .next t → memAddr y t = memAddr x s →
    ∃ u, exec (.ofLd rd (.mem y)) t = .next u ∧ readReg rd u = readReg rs s

/-- LD, ST and the fourteen flag-changing instructions with a word operand at an odd address: the memory violation with
R = 0 is taken and Rd, the flags and memory are as before but for trap entry. The saved PC is free between the two
addresses (D26, notes/assumptions/29.md); the form of trap entry is D25 (notes/assumptions/28.md). -/
def Obligations.OddOperandsTakeTheViolation : Prop :=
  ∀ (rd : Reg) (x : MemEa) (s : State), memWidth x = .word → isOdd (memAddr x s) = true → trapReady s = true →
    Traps (exec (.ofLd rd (.mem x)) s) 10 s.pc (s.pc + memBytes x) (oddCause s) s ∧
      Traps (exec (.ofSt rd x) s) 10 s.pc (s.pc + memBytes x) (oddCause s) s ∧
      ∀ op, (op = .cmp ∨ rd ≠ .flag) →
        Traps (exec (.ofAlu op rd (.mem x)) s) 10 s.pc (s.pc + memBytes x) (oddCause s) s

/-! ## Arithmetic, logic, shifts -/

/-- What is common to the thirteen instructions that write a result `r` to Rd and the flags: Rd, Z and S by `r`, E, P, I
and everything else as before (41_arith_logic.md R130). -/
def ResultAndFrame (rd : Reg) (x : Operand) (r : Word) (s t : State) : Prop :=
  (∀ q, physOf rd s.flag.p = some q → physRead q t = r) ∧ RegsKeptBut (physOf rd s.flag.p) s t ∧
    (t.flag.z = true ↔ r.toNat = 0) ∧ t.flag.s = r.getLsbD 15 ∧ ModeKept s t ∧ t.pc = s.pc + operandBytes x ∧
    BytesKept s t ∧ SystemKept s t

/-- ADD in its eight forms: the sum modulo 65536, C the unsigned and V the signed overflow (the spec's decision D13,
notes/assumptions/17.md). -/
def Obligations.AddGivesTheSumAndItsFlags : Prop :=
  ∀ (rd : Reg) (x : Operand) (s : State), rd ≠ .flag → operandReady x s = true →
    let a := readReg rd s
    let b := operandWord x s
    ∃ t r, exec (.ofAlu .add rd x) s = .next t ∧ ResultAndFrame rd x r s t ∧
      r.toNat = (a.toNat + b.toNat) % 65536 ∧ (t.flag.c = true ↔ 65536 ≤ a.toNat + b.toNat) ∧
      (t.flag.v = true ↔ a.toInt + b.toInt < -32768 ∨ 32767 < a.toInt + b.toInt)

/-- SUB in its eight forms: the difference modulo 65536, C the borrow and V the signed overflow (read by the spec from
the comparison table, notes/assumptions/17.md). -/
def Obligations.SubGivesTheDifferenceAndItsFlags : Prop :=
  ∀ (rd : Reg) (x : Operand) (s : State), rd ≠ .flag → operandReady x s = true →
    let a := readReg rd s
    let b := operandWord x s
    ∃ t r, exec (.ofAlu .sub rd x) s = .next t ∧ ResultAndFrame rd x r s t ∧
      r.toNat = (a.toNat + 65536 - b.toNat) % 65536 ∧ (t.flag.c = true ↔ a.toNat < b.toNat) ∧
      (t.flag.v = true ↔ a.toInt - b.toInt < -32768 ∨ 32767 < a.toInt - b.toInt)

/-- CMP in its eight forms, FLAG as Rd included: the flags of the difference, no register written. -/
def Obligations.CompareSetsTheFlagsOnly : Prop :=
  ∀ (rd : Reg) (x : Operand) (s : State), operandReady x s = true →
    let a := readReg rd s
    let b := operandWord x s
    ∃ t, exec (.ofAlu .cmp rd x) s = .next t ∧ RegsKeptBut none s t ∧ (t.flag.z = true ↔ a = b) ∧
      t.flag.s = (a - b).getLsbD 15 ∧ (t.flag.c = true ↔ a.toNat < b.toNat) ∧
      (t.flag.v = true ↔ a.toInt - b.toInt < -32768 ∨ 32767 < a.toInt - b.toInt) ∧ ModeKept s t ∧
      t.pc = s.pc + operandBytes x ∧ BytesKept s t ∧ SystemKept s t

/-- AND, OR and XOR in their eight forms: bit by bit; C and V are the open parameter FLAG_CV, a function of the mnemonic
and the two inputs (D14, notes/assumptions/18.md). -/
def Obligations.LogicWorksBitByBit : Prop :=
  ∀ (rd : Reg) (x : Operand) (s : State), rd ≠ .flag → operandReady x s = true →
    let a := readReg rd s
    let b := operandWord x s
    ∀ op f, (op = AluOp.and ∧ f = and) ∨ (op = .or ∧ f = or) ∨ (op = .xor ∧ f = xor) →
      ∃ t r, exec (.ofAlu op rd x) s = .next t ∧ ResultAndFrame rd x r s t ∧
        (∀ k, r.getLsbD k = f (a.getLsbD k) (b.getLsbD k)) ∧ t.flag.c = Config.flagC op a b ∧
        t.flag.v = Config.flagV op a b

/-- ADDS and MUL in their eight forms: `a + 2b` and the low 16 bits of the product (D15, notes/assumptions/19.md), the
same for signed operands; C and V open (D14, notes/assumptions/18.md). -/
def Obligations.ScaledAddAndMultiplyWrap : Prop :=
  ∀ (rd : Reg) (x : Operand) (s : State), rd ≠ .flag → operandReady x s = true →
    let a := readReg rd s
    let b := operandWord x s
    (∃ t r, exec (.ofAlu .adds rd x) s = .next t ∧ ResultAndFrame rd x r s t ∧
      r.toNat = (a.toNat + 2 * b.toNat) % 65536 ∧ t.flag.c = Config.flagC .adds a b ∧
      t.flag.v = Config.flagV .adds a b) ∧
    ∃ t r, exec (.ofAlu .mul rd x) s = .next t ∧ ResultAndFrame rd x r s t ∧
      r.toNat = (a.toNat * b.toNat) % 65536 ∧ r = BitVec.ofInt 16 (a.toInt * b.toInt) ∧
      t.flag.c = Config.flagC .mul a b ∧ t.flag.v = Config.flagV .mul a b

/-- DIV and MOD in their eight forms with a divisor other than 0: exact for operands up to 7FFFh, the open parameters
DIV_FN and MOD_FN otherwise (D16, notes/assumptions/20.md); Z and S by the result in both cases; C and V open (D14,
notes/assumptions/18.md). -/
def Obligations.DivisionIsExactWhereSignsAgree : Prop :=
  ∀ (rd : Reg) (x : Operand) (s : State), rd ≠ .flag → operandReady x s = true → operandWord x s ≠ 0 →
    let a := readReg rd s
    let b := operandWord x s
    (∃ t r, exec (.ofAlu .div rd x) s = .next t ∧ ResultAndFrame rd x r s t ∧
      (a.toNat ≤ 0x7FFF ∧ b.toNat ≤ 0x7FFF → r.toNat = a.toNat / b.toNat) ∧
      (¬(a.toNat ≤ 0x7FFF ∧ b.toNat ≤ 0x7FFF) → r = Config.divFn a b) ∧
      t.flag.c = Config.flagC .div a b ∧ t.flag.v = Config.flagV .div a b) ∧
    ∃ t r, exec (.ofAlu .mod rd x) s = .next t ∧ ResultAndFrame rd x r s t ∧
      (a.toNat ≤ 0x7FFF ∧ b.toNat ≤ 0x7FFF → r.toNat = a.toNat % b.toNat) ∧
      (¬(a.toNat ≤ 0x7FFF ∧ b.toNat ≤ 0x7FFF) → r = Config.modFn a b) ∧
      t.flag.c = Config.flagC .mod a b ∧ t.flag.v = Config.flagV .mod a b

/-- DIV and MOD by 0 take the exception ZeroDivide through the vector at FFF6h, Rd and the flags as before but for trap
entry (D17, D26, notes/assumptions/21.md, 29.md). -/
def Obligations.DivisionByZeroTraps : Prop :=
  ∀ (rd : Reg) (x : Operand) (s : State), rd ≠ .flag → operandReady x s = true → operandWord x s = 0 →
    trapReady s = true →
    Traps (exec (.ofAlu .div rd x) s) 11 s.pc (s.pc + operandBytes x) s.mmu s ∧
      Traps (exec (.ofAlu .mod rd x) s) 11 s.pc (s.pc + operandBytes x) s.mmu s

/-- The four shifts in their eight forms: for counts up to 15 the result of 42_shift.md R151 to R154, for others the open
parameter SHIFT_FN (D18, notes/assumptions/22.md), the same for SHLA and SHLL, which differ in C and V only (D19); Z and
S by the result in both cases; C and V open (D14, notes/assumptions/18.md). That `>>` keeps the sign is the spec's reading (R153). -/
def Obligations.ShiftsGiveTheirResults : Prop :=
  ∀ (rd : Reg) (x : Operand) (s : State), rd ≠ .flag → operandReady x s = true →
    let a := readReg rd s
    let n := (operandWord x s).toNat
    ∀ op, op = AluOp.shla ∨ op = .shll ∨ op = .shra ∨ op = .shrl →
      ∃ t r, exec (.ofAlu op rd x) s = .next t ∧ ResultAndFrame rd x r s t ∧
        t.flag.c = Config.flagC op a (operandWord x s) ∧ t.flag.v = Config.flagV op a (operandWord x s) ∧
        (n ≤ 15 →
          ((op = .shla ∨ op = .shll) → r.toNat = (a.toNat * 2 ^ n) % 65536) ∧
          (op = .shra → r.toInt = a.toInt / 2 ^ n) ∧ (op = .shrl → r.toNat = a.toNat / 2 ^ n)) ∧
        (15 < n → r = Config.shiftFn (if op = .shla then .shll else op) a (operandWord x s))

/-! ## Jumps and calls -/

/-- One jump: its condition number, its words, its effect: PC is the target when the condition holds and the next
instruction's address otherwise, and nothing else changes. -/
def JumpRule (cond : Cond) (c : BitVec 4) (holds : Flags → Prop) : Prop :=
  (∀ d : Word, encode (.ofJump cond (.direct d)) = [firstWord 0xA0 c 0, d]) ∧
    (∀ (d : Word) (rx : Reg), encode (.ofJump cond (.indexed d rx)) = [firstWord 0xA1 c rx.toField, d]) ∧
    ∀ s : State,
      (holds s.flag → (∀ d, exec (.ofJump cond (.direct d)) s = .next { s with pc := d }) ∧
        ∀ d rx, exec (.ofJump cond (.indexed d rx)) s = .next { s with pc := d + readReg rx s }) ∧
      (¬ holds s.flag → ∀ x, exec (.ofJump cond x) s = .next { s with pc := s.pc + 4 })

/-- 43_jump_call.md R160 to R164 and R169 to R172: the jumps that test one flag. That the address sums wrap is the spec's
decision D5 (notes/assumptions/12.md). -/
def Obligations.OneFlagJumpsFollowTheirFlag : Prop :=
  JumpRule .z 0x0 (fun f => f.z = true) ∧ JumpRule .c 0x1 (fun f => f.c = true) ∧
    JumpRule .m 0x2 (fun f => f.s = true) ∧ JumpRule .o 0x3 (fun f => f.v = true) ∧
    JumpRule .nz 0x8 (fun f => f.z = false) ∧ JumpRule .nc 0x9 (fun f => f.c = false) ∧
    JumpRule .nm 0xA (fun f => f.s = false) ∧ JumpRule .no 0xB (fun f => f.v = false)

/-- 43_jump_call.md R160, R165 to R168 and R173 to R175: the jumps that test several flags, and JMP. That the address
sums wrap is the spec's decision D5 (notes/assumptions/12.md). -/
def Obligations.RelationJumpsFollowTheirFlags : Prop :=
  JumpRule .gt 0x4 (fun f => f.z = false ∧ f.s = f.v) ∧ JumpRule .ge 0x5 (fun f => f.s = f.v) ∧
    JumpRule .le 0x6 (fun f => f.z = true ∨ f.s ≠ f.v) ∧ JumpRule .lt 0x7 (fun f => f.s ≠ f.v) ∧
    JumpRule .hi 0xC (fun f => f.z = false ∧ f.c = false) ∧ JumpRule .ls 0xE (fun f => f.z = true ∨ f.c = true) ∧
    JumpRule .always 0xF (fun _ => True)

/-- 43_jump_call.md R177: after a comparison (CMP, or SUB) each relation of the two operands is what its jump tests,
for every pair of operands. -/
def Obligations.ComparisonJumpsTestTheirRelation : Prop :=
  ∀ (op : AluOp) (rd : Reg) (x : Operand) (s : State), op = .cmp ∨ (op = .sub ∧ rd ≠ .flag) →
    operandReady x s = true →
    let a := readReg rd s
    let b := operandWord x s
    ∃ t, exec (.ofAlu op rd x) s = .next t ∧
      (condHolds .gt t.flag = true ↔ a.toInt > b.toInt) ∧ (condHolds .ge t.flag = true ↔ a.toInt ≥ b.toInt) ∧
      (condHolds .z t.flag = true ↔ a = b) ∧ (condHolds .nz t.flag = true ↔ a ≠ b) ∧
      (condHolds .le t.flag = true ↔ a.toInt ≤ b.toInt) ∧ (condHolds .lt t.flag = true ↔ a.toInt < b.toInt) ∧
      (condHolds .hi t.flag = true ↔ a.toNat > b.toNat) ∧ (condHolds .nc t.flag = true ↔ a.toNat ≥ b.toNat) ∧
      (condHolds .ls t.flag = true ↔ a.toNat ≤ b.toNat) ∧ (condHolds .c t.flag = true ↔ a.toNat < b.toNat)

/-- What a push of `v` leaves: the word below SP, SP 2 lower, every other byte and register, FLAG and the system as
before. -/
def Pushed (v : Word) (s t : State) : Prop :=
  wordAt t (readReg .sp s - 2) = v ∧ readReg .sp t = readReg .sp s - 2 ∧
    (∀ a, a ≠ (readReg .sp s - 2).toNat → a ≠ (readReg .sp s - 2).toNat + 1 → byteAt t a = byteAt s a) ∧
    RegsKeptBut (physOf .sp s.flag.p) s t ∧ t.flag = s.flag ∧ SystemKept s t

/-- CALL in both forms: the address after it is pushed on the stack that P selects and PC is the target, computed before
SP changes. That pushes decrement SP first is the spec's reading (C4, D20), that the address after the CALL is pushed
too (D21, notes/assumptions/24.md). -/
def Obligations.CallPushesTheReturnAddress : Prop :=
  ∀ (x : JumpEa) (s : State), pushReady s = true →
    ∃ t, exec (.ofCall x) s = .next t ∧ Pushed (s.pc + 4) s t ∧ t.pc = jumpTarget x s

/-- RET: PC is the word at SP and SP is 2 higher; nothing else changes. -/
def Obligations.ReturnPopsThePc : Prop :=
  ∀ s : State, popReady s = true →
    ∃ t, exec .ret s = .next t ∧ t.pc = wordAt s (readReg .sp s) ∧ readReg .sp t = readReg .sp s + 2 ∧
      RegsKeptBut (physOf .sp s.flag.p) s t ∧ t.flag = s.flag ∧ BytesKept s t ∧ SystemKept s t

/-- A RET executed with the stack as a CALL left it comes back to the address after the CALL, with SP as before it. -/
def Obligations.ReturnAfterCallComesBack : Prop :=
  ∀ (x : JumpEa) (s t u : State), pushReady s = true → exec (.ofCall x) s = .next t →
    u.mem = t.mem → u.mmu = t.mmu → u.flag.p = t.flag.p → readReg .sp u = readReg .sp t →
    ∃ r, exec .ret u = .next r ∧ r.pc = s.pc + 4 ∧ readReg .sp r = readReg .sp s

/-! ## The stack -/

/-- PUSH of every register but the stack pointer in use (C4, D20, notes/assumptions/24.md). -/
def Obligations.PushStoresTheRegister : Prop :=
  ∀ (rd : Reg) (s : State), namesStackPointer rd s = false → pushReady s = true →
    ∃ t, exec (.push rd) s = .next t ∧ Pushed (readReg rd s) s t ∧ t.pc = s.pc + 2

/-- POP of every register but the stack pointer in use: the word at SP goes to Rd (for FLAG through its write filter, the
spec's decision D22, notes/assumptions/25.md) and the SP that P selected is 2 higher. -/
def Obligations.PopLoadsTheRegister : Prop :=
  ∀ (rd : Reg) (s : State), namesStackPointer rd s = false → popReady s = true →
    ∃ t, exec (.pop rd) s = .next t ∧
      (∀ q, physOf rd s.flag.p = some q → physRead q t = wordAt s (readReg .sp s)) ∧
      (∀ q, physOf .sp s.flag.p = some q → physRead q t = readReg .sp s + 2) ∧
      (∀ q, physOf rd s.flag.p ≠ some q → physOf .sp s.flag.p ≠ some q → physRead q t = physRead q s) ∧
      t.flag = (if rd = .flag then s.flag.write (wordAt s (readReg .sp s)) else s.flag) ∧ t.pc = s.pc + 2 ∧
      BytesKept s t ∧ SystemKept s t

/-- The register operands given no meaning are refused: FLAG as the destination of a result, for all thirteen
instructions (U5), and the stack pointer in use as the operand of PUSH or POP, number Dh always, Eh too when P = 0 (U6,
notes/assumptions/23.md). -/
def Obligations.RegistersWithoutMeaningAreRefused : Prop :=
  (∀ (op : AluOp) (x : Operand) (s : State), op ≠ .cmp → exec (.ofAlu op .flag x) s = .refused .flagDestination) ∧
    ∀ s : State, exec (.push .sp) s = .refused .stackPointerOperand ∧ exec (.pop .sp) s = .refused .stackPointerOperand ∧
      (s.flag.p = false → exec (.push .usp) s = .refused .stackPointerOperand ∧
        exec (.pop .usp) s = .refused .stackPointerOperand)

/-- Pushing one register and popping into another moves the value and leaves SP as it was. -/
def Obligations.PopAfterPushMovesTheValue : Prop :=
  ∀ (rs rd : Reg) (s t : State), namesStackPointer rs s = false → namesStackPointer rd s = false → rd ≠ .flag →
    pushReady s = true → exec (.push rs) s = .next t →
    ∃ u, exec (.pop rd) t = .next u ∧ readReg rd u = readReg rs s ∧ readReg .sp u = readReg .sp s ∧
      ∀ r, r ≠ rd → r ≠ .sp → readReg r u = readReg r s

/-- With SP odd, PUSH, POP, CALL, RET and RETI take the memory violation with nothing of their own done in user mode; in
privileged mode the same SSP makes trap entry itself fail, which is refused (U8, D40, notes/assumptions/34.md; D25, D26,
notes/assumptions/28.md, 29.md). -/
def Obligations.OddStackPointerTakesTheViolation : Prop :=
  ∀ (rd : Reg) (x : JumpEa) (s : State), isOdd (readReg .sp s) = true → namesStackPointer rd s = false →
    (s.flag.p = false → trapReady s = true →
      Traps (exec (.push rd) s) 10 s.pc (s.pc + 2) (oddCause s) s ∧
        Traps (exec (.pop rd) s) 10 s.pc (s.pc + 2) (oddCause s) s ∧
        Traps (exec (.ofCall x) s) 10 s.pc (s.pc + 4) (oddCause s) s ∧
        Traps (exec .ret s) 10 s.pc (s.pc + 2) (oddCause s) s ∧
        Traps (exec .reti s) 10 s.pc (s.pc + 2) (oddCause s) s) ∧
      (s.flag.p = true →
        exec (.push rd) s = .refused .trapEntryFault ∧ exec (.pop rd) s = .refused .trapEntryFault ∧
          exec (.ofCall x) s = .refused .trapEntryFault ∧ exec .ret s = .refused .trapEntryFault ∧
          exec .reti s = .refused .trapEntryFault)

/-! ## Traps -/

/-- RETI: FLAG and then PC from the stack in use, SP 4 higher; in privileged mode all seven flags, in user mode V, C, S,
Z only. That both pops use the stack pointer selected at the start is the spec's decision D27
(notes/assumptions/26.md). -/
def Obligations.ReturnFromTrapRestoresFlagAndPc : Prop :=
  ∀ s : State, popReady s = true →
    let f := wordAt s (readReg .sp s)
    ∃ t, exec .reti s = .next t ∧ t.pc = wordAt s (readReg .sp s + 2) ∧
      (∀ q, physOf .sp s.flag.p = some q → physRead q t = readReg .sp s + 4) ∧
      RegsKeptBut (physOf .sp s.flag.p) s t ∧ t.flag.v = f.getLsbD 3 ∧ t.flag.c = f.getLsbD 2 ∧
      t.flag.s = f.getLsbD 1 ∧ t.flag.z = f.getLsbD 0 ∧ (s.flag.p = false → ModeKept s t) ∧
      (s.flag.p = true → t.flag.e = f.getLsbD 7 ∧ t.flag.p = f.getLsbD 6 ∧ t.flag.i = f.getLsbD 5) ∧ BytesKept s t ∧
      SystemKept s t

/-- SVC, in either mode, enters the trap through the vector at FFFCh with the address after it saved. The form of trap
entry is the spec's decision D25 (notes/assumptions/28.md), the saved address D26 (notes/assumptions/29.md). -/
def Obligations.SupervisorCallEntersItsTrap : Prop :=
  ∀ s : State, trapReady s = true → vectorAddr 14 = 0xFFFC ∧ ∃ t, exec .svc s = .next t ∧
    TrapEntered 14 (s.pc + 2) s.mmu s t

/-- A RETI executed in the handler of an SVC, with the frame and SSP as trap entry left them, resumes after the SVC with
the caller's FLAG, SSP and USP, whatever mode it ran in and whatever the handler did to the condition flags. -/
def Obligations.ReturnFromSupervisorCallResumes : Prop :=
  ∀ s t u : State, trapReady s = true → exec .svc s = .next t →
    u.mem = t.mem → u.mmu = t.mmu → u.ssp = t.ssp → u.usp = t.usp → u.flag.p = true →
    ∃ r, exec .reti u = .next r ∧ r.pc = s.pc + 2 ∧ r.flag = s.flag ∧ r.ssp = s.ssp ∧ r.usp = s.usp

/-- HALT with P = 1 stops the CPU with PC at the next instruction and changes nothing else; from the halted state there is
no step (D31, notes/assumptions/33.md); with P = 0 it takes the privilege violation and the CPU does not stop (D24,
notes/assumptions/27.md). -/
def Obligations.HaltStopsThePrivilegedCpu : Prop :=
  ∀ s : State,
    (s.flag.p = true → exec .halt s = .next { s with halted := true, pc := s.pc + 2 }) ∧
      (s.halted = true → step s = .fault .halted) ∧
      (s.flag.p = false → trapReady s = true → Traps (exec .halt s) 12 s.pc (s.pc + 2) s.mmu s)

/-! ## I/O -/

/-- IN in its three forms, with P or I set and an address that has a meaning: Rd takes the port's value (FLAG through its
write filter, D22, notes/assumptions/25.md), the read joins the record, nothing else changes. What a device port reads
is an oracle (D36, notes/assumptions/36.md); that IN needs P or I is D24 (notes/assumptions/27.md). -/
def Obligations.InputReadsThePort : Prop :=
  ∀ (rd : Reg) (x : IoEa) (s : State), ioReady x s = true →
    let v := ioValue (ioWidth x) (ioAddr x s) s
    ∃ t, exec (.ofIn rd x) s = .next t ∧ (∀ q, physOf rd s.flag.p = some q → physRead q t = v) ∧
      RegsKeptBut (physOf rd s.flag.p) s t ∧ t.flag = (if rd = .flag then s.flag.write v else s.flag) ∧
      t.pc = s.pc + ioBytes x ∧ BytesKept s t ∧ t.mmu = s.mmu ∧ t.halted = s.halted ∧ t.draws = s.draws ∧
      t.io = { s.io with history := .read (ioWidth x) (ioAddr x s) :: s.io.history } ∧
      (ioWidth x = .byte → v = (portByte (ioAddr x s).toNat s).setWidth 16) ∧
      (ioWidth x = .word → hiByte v = portByte (ioAddr x s).toNat s ∧ loByte v = portByte ((ioAddr x s).toNat + 1) s)

/-- What the ports read, whatever the oracle: free ports 00h, the bytes printed 00H 0, the status ports only their named
bits, the mode port one of five codes, RN4020-RAM what was last written (notes/assumptions/38.md), the violation cause in
bit 0 of port F5h (C8, notes/assumptions/46.md). The bytes printed 00H are those of 60_exceptions.md R231, and the reads
of DSw and Fnc that R238 prints 00H; what else a port answers is the oracle's (R236, notes/assumptions/36.md). -/
def Obligations.PortsReadWithinTheirLayout : Prop :=
  ∀ (s : State) (a : Nat),
    (0x38 ≤ a ∧ a ≤ 0xEF → portByte a s = 0) ∧
      (a ∈ [0x08, 0x0A, 0x0C, 0x0E, 0x10, 0x18, 0x1A, 0x1C, 0x1E, 0x20, 0x22, 0x24, 0x26, 0x28, 0x2A, 0x2C, 0x2E, 0x30,
        0x32, 0x33, 0x34, 0x35, 0x36, 0xF0, 0xF2, 0xFC, 0xFE] → portByte a s = 0) ∧
      (a = 0x0B ∨ a = 0x0F ∨ a = 0x2B → portByte a s &&& 0x3F = 0) ∧ (a = 0x11 → portByte a s &&& 0x3E = 0) ∧
      (a = 0x1F → portByte a s = 0 ∨ portByte a s = 1 ∨ portByte a s = 2 ∨ portByte a s = 3 ∨ portByte a s = 7) ∧
      (a = 0x2D → portByte a s &&& 0xF0 = 0) ∧ (a = 0x2F → portByte a s = Memory.read s.io.latch 0x2F) ∧
      (a = 0xF4 → portByte a s = 0) ∧ (a = 0xF5 → portByte a s = if s.mmu.cause then 1 else 0) ∧
      (a = 0xF7 → portByte a s = s.mmu.missPage) ∧ (a = 0xFD → portByte a s &&& 0xE0 = 0) ∧
      (a = 0xFF → portByte a s &&& 0xF0 = 0)

/-- OUT in its three forms, with P or I set and an address that has a meaning: the write joins the record, each device
port written holds the bits its layout draws, a source whose enable bit is set counts as enabled, READ or WRITE starts
an SD transfer, and no other output register, no CPU register, no RAM byte and, outside the ports F0h to F7h, no MMU
register changes. That OUT needs P or I is D24 (notes/assumptions/27.md); that the ports hold what was written, the
timers' control ports all 16 bits, the model's (notes/assumptions/38.md, 48.md); which bits enable a timer and the PIO,
and what starts a transfer, notes/assumptions/31.md and 40.md. -/
def Obligations.OutputWritesThePort : Prop :=
  ∀ (rd : Reg) (x : IoEa) (s : State), ioReady x s = true → reattaches x (readReg rd s) s = false →
    let a := (ioAddr x s).toNat
    let v := readReg rd s
    ∃ t, exec (.ofOut rd x) s = .next t ∧ RegsKeptBut none s t ∧ t.flag = s.flag ∧ t.mem = s.mem ∧
      t.halted = s.halted ∧ t.draws = s.draws ∧ t.pc = s.pc + ioBytes x ∧
      (∃ e, t.io.history = e :: s.io.history ∧ (ioWidth x = .word → e = .write .word (ioAddr x s) v) ∧
        (ioWidth x = .byte → e = .write .byte (ioAddr x s) (v &&& 0x00FF))) ∧
      (a < 0xF0 ∨ 0xF7 < a → t.mmu = s.mmu) ∧
      (∀ k, (0xF0 ≤ k ∧ k ≤ 0xF7) ∨ outByteAt x v s k = none → Memory.read t.io.latch k = Memory.read s.io.latch k) ∧
      (∀ k b, k < 0xF0 ∨ 0xF7 < k → outByteAt x v s k = some b → Memory.read t.io.latch k = b &&& writeMask k) ∧
      t.io.usdStarted = (s.io.usdStarted || outSets x v s 0x11 1 || outSets x v s 0x11 0) ∧
      (∀ e ∈ [(0, 0x02, 7), (1, 0x06, 7), (2, 0x2B, 6), (3, 0x2B, 7), (4, 0x0B, 6), (5, 0x0B, 7), (6, 0x0F, 6),
          (7, 0x0F, 7), (8, 0x11, 7)],
        t.io.irqEnabled.getLsbD e.1 = (s.io.irqEnabled.getLsbD e.1 || outSets x v s e.2.1 e.2.2)) ∧
      (t.io.irqEnabled.getLsbD 9 = true ↔ s.io.irqEnabled.getLsbD 9 = true ∨
        ∃ b, b ≠ 0 ∧ (outByteAt x v s 0x25 = some b ∨ outByteAt x v s 0x27 = some b))

/-- Writes to the MMU's ports, in every form that reaches them. A word: F0h bit 0 detaches the IPL ROM, F2h bits 0 and 1
enable relocation and paging, F4h writes the base and the holding register, F6h the limit register and the TLB entry
that its index names. A byte: F1h and F3h as the words, F4h to F7h their half of the base and the holding register or of
the limit register and no TLB entry, F0h and F2h nothing. Writing 0 to the detach bit after it was 1 is refused (U10).
Which of base and holding register (and of limit register and TLB entry) is written with both modes off, and what a byte
write does, is the model's choice (notes/assumptions/39.md). -/
def Obligations.MmuPortsSetTheirRegisters : Prop :=
  ∀ (rd : Reg) (x : IoEa) (s : State), ioReady x s = true →
    let v := readReg rd s
    let m := s.mmu
    let hits := fun (w : Width) (p : Word) => ioWidth x = w ∧ ioAddr x s = p
    (reattaches x v s = true → exec (.ofOut rd x) s = .refused .romReattach) ∧
    (reattaches x v s = false → ∃ t, exec (.ofOut rd x) s = .next t ∧
      (t.mmu.iplDetached = true → ∀ a, byteAt t a = Memory.read s.mem a) ∧
      (hits .word 0xF0 ∨ hits .byte 0xF1 → t.mmu = { m with iplDetached := m.iplDetached || v.getLsbD 0 }) ∧
      (hits .word 0xF2 ∨ hits .byte 0xF3 → t.mmu = { m with relocation := v.getLsbD 0, paging := v.getLsbD 1 }) ∧
      (hits .word 0xF4 → t.mmu = { m with base := v, tlbHold := v }) ∧
      (hits .byte 0xF4 →
        t.mmu = { m with base := loByte v ++ loByte m.base, tlbHold := loByte v ++ loByte m.tlbHold }) ∧
      (hits .byte 0xF5 →
        t.mmu = { m with base := hiByte m.base ++ loByte v, tlbHold := hiByte m.tlbHold ++ loByte v }) ∧
      (hits .word 0xF6 → t.mmu.limit = v ∧
        (∀ n : Fin 8, t.mmu.tlb[n] = if n.val = v.toNat / 256 % 8 then loByte v ++ m.tlbHold else m.tlb[n]) ∧
        { t.mmu with limit := m.limit, tlb := m.tlb } = m) ∧
      (hits .byte 0xF6 → t.mmu = { m with limit := loByte v ++ loByte m.limit }) ∧
      (hits .byte 0xF7 → t.mmu = { m with limit := hiByte m.limit ++ loByte v }) ∧
      (hits .byte 0xF0 ∨ hits .byte 0xF2 → t.mmu = m))

/-- IN and OUT in user mode with I = 0 take the privilege violation: no port is read or written, no register changes but
by trap entry (D24, D25, D26, notes/assumptions/27.md, 28.md, 29.md). -/
def Obligations.InputOutputNeedPrivilege : Prop :=
  ∀ (rd : Reg) (x : IoEa) (s : State), s.flag.p = false → s.flag.i = false → trapReady s = true →
    Traps (exec (.ofIn rd x) s) 12 s.pc (s.pc + ioBytes x) s.mmu s ∧
      Traps (exec (.ofOut rd x) s) 12 s.pc (s.pc + ioBytes x) s.mmu s

/-- An I/O address above 00FFh, and a word at an odd one, are given no meaning: refused when the privilege check passes
(U7, D35, D36, notes/assumptions/37.md). -/
def Obligations.IoAddressesWithoutMeaningAreRefused : Prop :=
  ∀ (rd : Reg) (x : IoEa) (s : State), ioAllowed s = true →
    (255 < (ioAddr x s).toNat → exec (.ofIn rd x) s = .refused .ioAddressAboveFF ∧
      exec (.ofOut rd x) s = .refused .ioAddressAboveFF) ∧
      ((ioAddr x s).toNat ≤ 255 → ioWidth x = .word → isOdd (ioAddr x s) = true →
        exec (.ofIn rd x) s = .refused .ioWordAtOddAddress ∧ exec (.ofOut rd x) s = .refused .ioWordAtOddAddress)

/-! ## Steps -/

/-- When the words at PC decode to an instruction, a step is that instruction's execution, after which only the draw and
(once an SD transfer was started) the memory change (notes/assumptions/36.md, 40.md). -/
def Obligations.StepRunsTheDecodedInstruction : Prop :=
  ∀ (s : State) (i : Instr), fetchReady s = true → decode (wordAt s s.pc) (secondWord s) = .instr i →
    i.wf = true ∧ step s = finishStep (exec i s) ∧
      (∀ t, finishStep (.next t) = .next (endStep t) ∧ { endStep t with mem := t.mem, draws := t.draws } = t ∧
        (endStep t).draws = t.draws + 1 ∧ (t.io.usdStarted = false → (endStep t).mem = t.mem)) ∧
      (∀ f, finishStep (.fault f) = .fault f) ∧ ∀ r, finishStep (.refused r) = .refused r

/-- A first word with an undefined OP raises UndefinedInstruction through the vector at FFFAh and nothing else happens
(D10, D25, D26, notes/assumptions/16.md, 28.md, 29.md); one with a refused encoding is refused (D9, D11, D12,
notes/assumptions/15.md). -/
def Obligations.StepOnAWordThatIsNoInstruction : Prop :=
  ∀ s : State, fetchReady s = true →
    (decode (wordAt s s.pc) (secondWord s) = .undefined → trapReady s = true →
      ∃ t spc, step s = .next (endStep t) ∧ (spc = s.pc ∨ spc = s.pc + 2) ∧ TrapEntered 13 spc s.mmu s t) ∧
      ∀ why, decode (wordAt s s.pc) (secondWord s) = .rejected why → step s = .refused (.encoding why)

/-- A fetch with PC odd takes the memory violation with R = 0 before anything executes (D3, notes/assumptions/10.md; D25,
D26, notes/assumptions/28.md, 29.md). -/
def Obligations.OddPcTakesTheViolation : Prop :=
  ∀ s : State, s.halted = false → acceptedInterrupt s = none → isOdd s.pc = true → trapReady s = true →
    ∃ t spc, step s = .next (endStep t) ∧ (spc = s.pc ∨ spc = s.pc + 2) ∧ TrapEntered 10 spc (oddCause s) s t

/-- Device interrupts, whatever the oracle requests: with E = 0 or no request of an enabled source none is accepted, with
E = 1 and such a request one of those sources is, the one `IRQ_PRIORITY` names if it is among them; the step of a running
machine is then trap entry through that source's vector with PC saved and E = 0, so that no other interrupt follows at
once, and otherwise the instruction at PC (D25, D28, D29, D43, notes/assumptions/28.md, 30.md, 31.md). -/
def Obligations.InterruptsAreTakenBetweenInstructions : Prop :=
  (∀ (requests : BitVec 10) (first : Fin 10) (s : State),
    (s.flag.e = false ∨ (∀ k : Fin 10, s.io.irqEnabled.getLsbD k = true → requests.getLsbD k = false) →
      acceptAmong requests first s = none) ∧
    (s.flag.e = true → ∀ k : Fin 10, s.io.irqEnabled.getLsbD k = true → requests.getLsbD k = true →
      ∃ j : Fin 10, acceptAmong requests first s = some j ∧ s.io.irqEnabled.getLsbD j = true ∧
        requests.getLsbD j = true ∧
        (s.io.irqEnabled.getLsbD first = true → requests.getLsbD first = true → j = first))) ∧
    (∀ s : State, s.halted = false → mmuOn s = false →
      acceptedInterrupt s = acceptAmong (Config.irqRequests s.io.history s.draws)
        (Config.irqPriority s.draws (Config.irqRequests s.io.history s.draws &&& s.io.irqEnabled)) s ∧
      step s = match acceptedInterrupt s with
        | some k => finishStep (takeInterrupt k s)
        | none => finishStep (runInstr s)) ∧
    ∀ (k : Fin 10) (s : State), trapReady s = true →
      ∃ t, takeInterrupt k s = .next t ∧ TrapEntered k s.pc s.mmu s t ∧ acceptedInterrupt (endStep t) = none

/-- With relocation or paging enabled no step has a meaning (U9, D37, notes/assumptions/6.md). -/
def Obligations.EnabledMmuRefusesTheStep : Prop :=
  ∀ s : State, s.halted = false → mmuOn s = true → step s = .refused .mmuEnabled

/-- The invariant of every step: memory and the output registers keep their canonical form, and an output register holds
only the bits its port's layout draws. -/
def Obligations.EveryStepKeepsTheInvariant : Prop :=
  ∀ s t : State, stateInv s = true → step s = .next t → stateInv t = true

/-- 60_exceptions.md R221: a step of user mode leaves E, P and I as they are, or is trap entry: a program cannot raise its
own privilege. The write filter of FLAG is D22, trap entry D25 (notes/assumptions/25.md, 28.md). -/
def Obligations.UserModeIsLeftOnlyByTraps : Prop :=
  ∀ s t : State, s.flag.p = false → step s = .next t →
    ModeKept s t ∨ ∃ u k spc m, t = endStep u ∧ k < 16 ∧ TrapEntered k spc m s u

/-- A user-mode instruction without the I/O privilege, other than by trap entry, changes no MMU register, no device
register and neither SSP nor the halted condition (D22, D24, notes/assumptions/25.md, 27.md). -/
def Obligations.UserModeIsConfined : Prop :=
  ∀ (i : Instr) (s t : State), s.flag.p = false → s.flag.i = false → exec i s = .next t →
    (SystemKept s t ∧ t.ssp = s.ssp ∧ ModeKept s t) ∨ ∃ k spc m, 10 ≤ k ∧ k < 15 ∧ TrapEntered k spc m s t

/-- Only HALT halts the CPU, and only with P = 1; no instruction starts it again. -/
def Obligations.OnlyHaltHalts : Prop :=
  ∀ (i : Instr) (s t : State), exec i s = .next t → t.halted ≠ s.halted → i = .halt ∧ s.flag.p = true ∧ t.halted = true

/-- Every instruction answers a next state (its own effect, or the exception it raises) unless it is one of the forms the
spec gives no meaning: with the MMU off and a usable system stack nothing else stops the machine. -/
def Obligations.EveryInstructionGoesOn : Prop :=
  ∀ (i : Instr) (s : State), trapReady s = true → givenNoMeaning i s = false → ∃ t, exec i s = .next t

/-- The state counts of 70_reset_and_hazards.md R265 and R266 (D41, notes/assumptions/42.md): timing data, no part of the
state. -/
def Obligations.StateCountsFollowTheTable : Prop :=
  ∀ (rd rs : Reg) (d v : Word) (k : Int) (taken : Bool) (n : Nat),
    let counts := fun (f : Operand → Instr) => [stateCount (f (.mem (.direct d))) taken n,
      stateCount (f (.mem (.indexed d rs))) taken n, stateCount (f (.imm v)) taken n,
      stateCount (f (.mem (.fpRel k))) taken n, stateCount (f (.reg rs)) taken n, stateCount (f (.imm4 k)) taken n,
      stateCount (f (.mem (.indir rs))) taken n, stateCount (f (.mem (.byteIndir rs))) taken n]
    counts (.ofLd rd) = [7, 7, 5, 7, 4, 4, 6, 6] ∧
      (∀ op, op = AluOp.add ∨ op = .sub ∨ op = .cmp ∨ op = .and ∨ op = .or ∨ op = .xor →
        counts (.ofAlu op rd) = [7, 7, 5, 7, 5, 4, 6, 6]) ∧
      counts (.ofAlu .adds rd) = [8, 8, 6, 8, 6, 5, 7, 7] ∧
      counts (.ofAlu .mul rd) = [57, 57, 55, 57, 55, 54, 56, 56] ∧
      (∀ op, op = AluOp.div ∨ op = .mod → counts (.ofAlu op rd) = [73, 73, 71, 73, 71, 70, 72, 72]) ∧
      (∀ op, op = AluOp.shla ∨ op = .shll ∨ op = .shra ∨ op = .shrl →
        counts (.ofAlu op rd) = [8 + n, 8 + n, 6 + n, 8 + n, 6 + n, 5 + n, 7 + n, 7 + n]) ∧
      (∀ cond x, stateCount (.ofJump cond x) taken n = if cond = .always ∨ taken = true then 5 else 4) ∧
      (∀ x, stateCount (.ofCall x) taken n = 6) ∧
      stateCount (.stDirect rd d) taken n = 6 ∧ stateCount (.stIndexed rd d rs) taken n = 6 ∧
      stateCount (.stFpRel rd k) taken n = 6 ∧ stateCount (.stIndir rd rs) taken n = 5 ∧
      stateCount (.stByteIndir rd rs) taken n = 5 ∧ stateCount (.inDirect rd d) taken n = 7 ∧
      stateCount (.inIndir rd rs) taken n = 6 ∧ stateCount (.inByteIndir rd rs) taken n = 6 ∧
      stateCount (.outDirect rd d) taken n = 6 ∧ stateCount (.outIndir rd rs) taken n = 5 ∧
      stateCount (.outByteIndir rd rs) taken n = 5 ∧ stateCount .no taken n = 3 ∧ stateCount (.push rd) taken n = 5 ∧
      stateCount (.pop rd) taken n = 6 ∧ stateCount .ret taken n = 6 ∧ stateCount .reti taken n = 9 ∧
      stateCount .svc taken n = 12 ∧ stateCount .halt taken n = 5
end

