-- ==== Sys2Proof/Laws/Encoding.lean ====
section
/-! SUPPORT. What the decoder's fields read from an encoded first word, and the fields there and back. -/

namespace Sys2Proof

theorem opField_firstWord (op : Nat) (rd rx : BitVec 4) : opField (firstWord op rd rx) = BitVec.ofNat 8 op := by
  apply BitVec.eq_of_getLsbD_eq
  intro k hk
  have h1 : ¬ 8 + k < 4 := by omega
  have h2 : ¬ 8 + k - 4 < 4 := by omega
  have h3 : 8 + k - 4 - 4 = k := by omega
  simp only [opField, firstWord, BitVec.getLsbD_extractLsb', BitVec.getLsbD_append]
  simp [hk, h1, h2, h3]

theorem rdField_firstWord (op : Nat) (rd rx : BitVec 4) : rdField (firstWord op rd rx) = rd := by
  apply BitVec.eq_of_getLsbD_eq
  intro k hk
  have h1 : ¬ 4 + k < 4 := by omega
  simp only [rdField, firstWord, BitVec.getLsbD_extractLsb', BitVec.getLsbD_append]
  simp [hk, h1]

theorem rxField_firstWord (op : Nat) (rd rx : BitVec 4) : rxField (firstWord op rd rx) = rx := by
  apply BitVec.eq_of_getLsbD_eq
  intro k hk
  simp only [rxField, firstWord, BitVec.getLsbD_extractLsb', BitVec.getLsbD_append]
  simp [hk]

/-- The length rule looks at OP alone (30_encoding.md R86). -/
theorem wordCount_firstWord (op : Nat) (rd rx : BitVec 4) :
    wordCount (firstWord op rd rx) = wordCount (firstWord op 0 0) := by
  simp [wordCount, opField_firstWord]

theorem Reg.ofField_toField (r : Reg) : Reg.ofField r.toField = r := by
  cases r with
  | g n => revert n; decide
  | fp => rfl
  | sp => rfl
  | usp => rfl
  | flag => rfl

theorem Reg.toField_ofField (f : BitVec 4) : (Reg.ofField f).toField = f := by
  revert f; decide

theorem Cond.ofField_toField (cond : Cond) : Cond.ofField cond.toField = some cond := by
  cases cond <;> rfl

theorem dsp4OfField_toField (d : Int) (h : dsp4Ok d = true) : dsp4OfField (dsp4ToField d) = d := by
  have hd : d % 2 = 0 ∧ -16 ≤ d ∧ d ≤ 14 := by simpa [dsp4Ok, and_assoc] using h
  obtain ⟨k, rfl⟩ : ∃ k, d = 2 * k := ⟨d / 2, by omega⟩
  have hk : k = -8 ∨ k = -7 ∨ k = -6 ∨ k = -5 ∨ k = -4 ∨ k = -3 ∨ k = -2 ∨ k = -1 ∨ k = 0 ∨ k = 1 ∨ k = 2 ∨ k = 3 ∨
      k = 4 ∨ k = 5 ∨ k = 6 ∨ k = 7 := by omega
  rcases hk with h | h | h | h | h | h | h | h | h | h | h | h | h | h | h | h <;> subst h <;> decide

theorem dsp4Ok_ofField (f : BitVec 4) : dsp4Ok (dsp4OfField f) = true ∧ dsp4ToField (dsp4OfField f) = f := by
  revert f; decide

theorem imm4OfField_toField (v : Int) (h : imm4Ok v = true) : imm4OfField (imm4ToField v) = v := by
  have hv : -8 ≤ v ∧ v ≤ 7 := by simpa [imm4Ok] using h
  have hk : v = -8 ∨ v = -7 ∨ v = -6 ∨ v = -5 ∨ v = -4 ∨ v = -3 ∨ v = -2 ∨ v = -1 ∨ v = 0 ∨ v = 1 ∨ v = 2 ∨ v = 3 ∨
      v = 4 ∨ v = 5 ∨ v = 6 ∨ v = 7 := by omega
  rcases hk with h | h | h | h | h | h | h | h | h | h | h | h | h | h | h | h <;> subst h <;> decide

theorem imm4Ok_ofField (f : BitVec 4) : imm4Ok (imm4OfField f) = true ∧ imm4ToField (imm4OfField f) = f := by
  revert f; decide

/-- Splitting a word into its bytes and joining them gives it back (20_memory.md R51). -/
theorem joinBytes_hi_lo (w : Word) : joinBytes (hiByte w) (loByte w) = w := by
  apply BitVec.eq_of_getLsbD_eq
  intro k hk
  simp only [joinBytes, hiByte, loByte, BitVec.getLsbD_append, BitVec.getLsbD_extractLsb']
  by_cases h : k < 8
  · simp [h]
  · have h1 : 8 + (k - 8) = k := by omega
    have h2 : k - 8 < 8 := by omega
    simp [h, h1, h2]

@[simp] theorem hiByte_joinBytes (hi lo : Byte) : hiByte (joinBytes hi lo) = hi := by
  apply BitVec.eq_of_getLsbD_eq
  intro k hk
  simp only [joinBytes, hiByte, BitVec.getLsbD_append, BitVec.getLsbD_extractLsb']
  simp [hk]

@[simp] theorem loByte_joinBytes (hi lo : Byte) : loByte (joinBytes hi lo) = lo := by
  apply BitVec.eq_of_getLsbD_eq
  intro k hk
  simp only [joinBytes, loByte, BitVec.getLsbD_append, BitVec.getLsbD_extractLsb']
  simp [hk]

/-! ## Decoding -/

/-- A first word is the sum of its fields (30_encoding.md R82). -/
theorem word_eq_firstWord (w : Word) : w = firstWord (opField w).toNat (rdField w) (rxField w) := by
  apply BitVec.eq_of_getLsbD_eq
  intro k hk
  simp only [firstWord, BitVec.ofNat_toNat, BitVec.setWidth_eq, BitVec.getLsbD_append, opField, rdField, rxField,
    BitVec.getLsbD_extractLsb']
  by_cases h1 : k < 4
  · simp [h1]
  · by_cases h2 : k < 8
    · have a1 : k - 4 < 4 := by omega
      have a2 : 4 + (k - 4) = k := by omega
      simp [h1, a1, a2]
    · have a1 : ¬ k - 4 < 4 := by omega
      have a2 : 8 + (k - 4 - 4) = k := by omega
      have a3 : k - 4 - 4 < 8 := by omega
      simp [h1, a1, a2, a3]

/-- A fixed field passes exactly when it is 0 (30_encoding.md R84, R105 (a)). -/
theorem whenZero_instr_iff (f : BitVec 4) (d : Decoded) (i : Instr) :
    whenZero f d = .instr i ↔ f = 0 ∧ d = .instr i := by
  unfold whenZero
  by_cases h : f = 0
  · rw [if_pos h]
    exact ⟨fun e => ⟨h, e⟩, fun e => e.2⟩
  · rw [if_neg h]
    exact ⟨fun e => (nomatch e), fun e => absurd e.1 h⟩

theorem Operand.mode_lt (x : Operand) : x.mode < 8 := by
  cases x with
  | mem ea => cases ea <;> simp [Operand.mode, MemEa.mode]
  | _ => simp [Operand.mode]

/-- The row of a flag-changing instruction in the opcode map is decoded by its operand form (30_encoding.md R99). -/
theorem decode_alu (op : AluOp) {m : Nat} (hm : m < 8) (rd rx : BitVec 4) (w2 : Word) :
    decode (firstWord (op.base + m) rd rx) w2 = decodeOperand (.ofAlu op (Reg.ofField rd)) m rx w2 := by
  have hb : op.base < 240 ∧ op.base % 8 = 0 := by cases op <;> decide
  have h1 : (BitVec.ofNat 8 (op.base + m)).toNat / 8 = op.base / 8 := by
    rw [BitVec.toNat_ofNat]; omega
  have h2 : (BitVec.ofNat 8 (op.base + m)).toNat % 8 = m := by
    rw [BitVec.toNat_ofNat]; omega
  simp only [decode, opField_firstWord, rdField_firstWord, rxField_firstWord, h1, h2]
  cases op <;> rfl

end Sys2Proof
end

