-- ==== Sys2Proof/Laws/Memory.lean ====
section
/-! SUPPORT. The laws of the byte store: a read after a write, and the canonical form, which every write keeps. -/

namespace Sys2Proof.Machine

@[simp] theorem Memory.read_nil (a : Nat) : Memory.read [] a = 0 := rfl

theorem Memory.read_cons (k : Nat) (b : Byte) (m : Memory) (a : Nat) :
    Memory.read ((k, b) :: m) a = if k = a then b else Memory.read m a := rfl

/-! ## Reading -/

theorem Memory.erase_absent (m : Memory) (a : Nat) : ∀ c ∈ Memory.erase a m, c.1 ≠ a := by
  induction m with
  | nil => simp [Memory.erase]
  | cons c rest ih =>
    obtain ⟨k, b⟩ := c
    by_cases hk : k = a
    · simpa [Memory.erase, hk] using ih
    · intro c hc
      rcases List.mem_cons.mp (by simpa [Memory.erase, hk] using hc) with h | h
      · exact h ▸ hk
      · exact ih c h

theorem Memory.read_absent (m : Memory) (a : Nat) (h : ∀ c ∈ m, c.1 ≠ a) : Memory.read m a = 0 := by
  induction m with
  | nil => rfl
  | cons c rest ih =>
    obtain ⟨k, b⟩ := c
    have hk : k ≠ a := h (k, b) (by simp)
    simpa [Memory.read_cons, hk] using ih fun c hc => h c (by simp [hc])

theorem Memory.read_erase_ne (m : Memory) {a x : Nat} (hx : x ≠ a) :
    Memory.read (Memory.erase a m) x = Memory.read m x := by
  induction m with
  | nil => rfl
  | cons c rest ih =>
    obtain ⟨k, b⟩ := c
    by_cases hk : k = a
    · subst hk
      simp [Memory.erase, ih, Memory.read_cons, Ne.symm hx]
    · simp [Memory.erase, hk, ih, Memory.read_cons]

theorem Memory.read_insert (m : Memory) (a : Nat) (v : Byte) (x : Nat) (h : ∀ c ∈ m, c.1 ≠ a) :
    Memory.read (Memory.insert a v m) x = if x = a then v else Memory.read m x := by
  induction m with
  | nil =>
    by_cases hx : x = a
    · simp [Memory.insert, Memory.read_cons, hx]
    · simp [Memory.insert, Memory.read_cons, hx, Ne.symm hx]
  | cons c rest ih =>
    obtain ⟨k, b⟩ := c
    have hk : k ≠ a := h (k, b) (by simp)
    have ih' := ih fun c hc => h c (by simp [hc])
    by_cases hlt : a < k
    · by_cases hx : x = a
      · simp [Memory.insert, hlt, Memory.read_cons, hx]
      · simp [Memory.insert, hlt, Memory.read_cons, hx, Ne.symm hx]
    · by_cases hx : x = a
      · subst hx
        simp [Memory.insert, hlt, Memory.read_cons, hk, ih']
      · simp [Memory.insert, hlt, Memory.read_cons, ih', hx]

/-- A read after a write: the value written at its address, what was there before elsewhere. -/
theorem Memory.read_write (m : Memory) (a : Nat) (v : Byte) (x : Nat) :
    Memory.read (Memory.write m a v) x = if x = a then v else Memory.read m x := by
  unfold Memory.write
  by_cases hv : v = 0
  · by_cases hx : x = a
    · simpa [hv, hx] using Memory.read_absent _ a (Memory.erase_absent m a)
    · simp [hv, hx, Memory.read_erase_ne m hx]
  · rw [if_neg hv, Memory.read_insert _ _ _ _ (Memory.erase_absent m a)]
    by_cases hx : x = a
    · simp [hx]
    · simp [hx, Memory.read_erase_ne m hx]

@[simp] theorem Memory.read_write_same (m : Memory) (a : Nat) (v : Byte) :
    Memory.read (Memory.write m a v) a = v := by
  simp [Memory.read_write]

theorem Memory.read_write_ne (m : Memory) {a x : Nat} (v : Byte) (h : x ≠ a) :
    Memory.read (Memory.write m a v) x = Memory.read m x := by
  simp [Memory.read_write, h]

/-! ## The canonical form -/

theorem Memory.wfFrom_cons (size low k : Nat) (b : Byte) (m : Memory) :
    Memory.wfFrom size low ((k, b) :: m) = true ↔
      low ≤ k ∧ k < size ∧ b ≠ 0 ∧ Memory.wfFrom size (k + 1) m = true := by
  simp [Memory.wfFrom, and_assoc]

theorem Memory.wfFrom_mono {size low low' : Nat} {m : Memory} (hl : low' ≤ low) (h : Memory.wfFrom size low m = true) :
    Memory.wfFrom size low' m = true := by
  cases m with
  | nil => rfl
  | cons c rest =>
    obtain ⟨k, b⟩ := c
    rw [Memory.wfFrom_cons] at h ⊢
    exact ⟨by omega, h.2⟩

theorem Memory.wfFrom_erase {size : Nat} (a : Nat) {m : Memory} :
    ∀ {low : Nat}, Memory.wfFrom size low m = true → Memory.wfFrom size low (Memory.erase a m) = true := by
  induction m with
  | nil => intro low _; rfl
  | cons c rest ih =>
    intro low h
    obtain ⟨k, b⟩ := c
    rw [Memory.wfFrom_cons] at h
    by_cases hk : k = a
    · simpa [Memory.erase, hk] using Memory.wfFrom_mono (by omega) (ih h.2.2.2)
    · simp only [Memory.erase, hk, if_false, Memory.wfFrom_cons]
      exact ⟨h.1, h.2.1, h.2.2.1, ih h.2.2.2⟩

theorem Memory.wfFrom_insert {size a : Nat} {v : Byte} (ha : a < size) (hv : v ≠ 0) {m : Memory} :
    ∀ {low : Nat}, low ≤ a → (∀ c ∈ m, c.1 ≠ a) → Memory.wfFrom size low m = true →
      Memory.wfFrom size low (Memory.insert a v m) = true := by
  induction m with
  | nil =>
    intro low hl _ _
    simpa [Memory.insert, Memory.wfFrom, hl, ha] using hv
  | cons c rest ih =>
    intro low hl hne h
    obtain ⟨k, b⟩ := c
    have hk : k ≠ a := hne (k, b) (by simp)
    rw [Memory.wfFrom_cons] at h
    by_cases hlt : a < k
    · simp only [Memory.insert, hlt, if_true, Memory.wfFrom_cons]
      exact ⟨hl, ha, hv, by omega, h.2⟩
    · simp only [Memory.insert, hlt, if_false, Memory.wfFrom_cons]
      exact ⟨h.1, h.2.1, h.2.2.1, ih (by omega) (fun c hc => hne c (by simp [hc])) h.2.2.2⟩

/-- A write keeps the canonical form. -/
theorem Memory.wf_write {size : Nat} {m : Memory} {a : Nat} (v : Byte) (ha : a < size)
    (h : Memory.wf size m = true) : Memory.wf size (Memory.write m a v) = true := by
  unfold Memory.write
  by_cases hv : v = 0
  · rw [if_pos hv]
    exact Memory.wfFrom_erase a h
  · rw [if_neg hv]
    exact Memory.wfFrom_insert ha hv (by omega) (Memory.erase_absent m a) (Memory.wfFrom_erase a h)

/-- A run of writes keeps the canonical form. -/
theorem Memory.wf_writes {l : List (Word × Byte)} : ∀ {m : Memory}, Memory.wf 65536 m = true →
    Memory.wf 65536 (l.foldl (fun m c => Memory.write m c.1.toNat c.2) m) = true := by
  induction l with
  | nil => intro m h; exact h
  | cons c rest ih => intro m h; exact ih (Memory.wf_write c.2 c.1.isLt h)

theorem State.reset_mem_wf : Memory.wf 65536 State.reset.mem = true := by decide

theorem State.reset_latch_wf : Memory.wf 256 State.reset.io.latch = true := by decide

end Sys2Proof.Machine
end

