-- ==== Sys2Proof/Laws/State.lean ====
section
/-! SUPPORT. What each update of the state does to each field. -/

namespace Sys2Proof.Machine

variable (s : State)

@[simp] theorem State.setG_g (n : Fin 12) (v : Word) : (s.setG n v).g = s.g.set n.val v n.isLt := rfl
@[simp] theorem State.setG_fp (n : Fin 12) (v : Word) : (s.setG n v).fp = s.fp := rfl
@[simp] theorem State.setG_ssp (n : Fin 12) (v : Word) : (s.setG n v).ssp = s.ssp := rfl
@[simp] theorem State.setG_usp (n : Fin 12) (v : Word) : (s.setG n v).usp = s.usp := rfl
@[simp] theorem State.setG_pc (n : Fin 12) (v : Word) : (s.setG n v).pc = s.pc := rfl
@[simp] theorem State.setG_flag (n : Fin 12) (v : Word) : (s.setG n v).flag = s.flag := rfl
@[simp] theorem State.setG_halted (n : Fin 12) (v : Word) : (s.setG n v).halted = s.halted := rfl
@[simp] theorem State.setG_mem (n : Fin 12) (v : Word) : (s.setG n v).mem = s.mem := rfl
@[simp] theorem State.setG_mmu (n : Fin 12) (v : Word) : (s.setG n v).mmu = s.mmu := rfl
@[simp] theorem State.setG_io (n : Fin 12) (v : Word) : (s.setG n v).io = s.io := rfl
@[simp] theorem State.setG_draws (n : Fin 12) (v : Word) : (s.setG n v).draws = s.draws := rfl

@[simp] theorem State.setFp_g (v : Word) : (s.setFp v).g = s.g := rfl
@[simp] theorem State.setFp_fp (v : Word) : (s.setFp v).fp = v := rfl
@[simp] theorem State.setFp_ssp (v : Word) : (s.setFp v).ssp = s.ssp := rfl
@[simp] theorem State.setFp_usp (v : Word) : (s.setFp v).usp = s.usp := rfl
@[simp] theorem State.setFp_pc (v : Word) : (s.setFp v).pc = s.pc := rfl
@[simp] theorem State.setFp_flag (v : Word) : (s.setFp v).flag = s.flag := rfl
@[simp] theorem State.setFp_halted (v : Word) : (s.setFp v).halted = s.halted := rfl
@[simp] theorem State.setFp_mem (v : Word) : (s.setFp v).mem = s.mem := rfl
@[simp] theorem State.setFp_mmu (v : Word) : (s.setFp v).mmu = s.mmu := rfl
@[simp] theorem State.setFp_io (v : Word) : (s.setFp v).io = s.io := rfl
@[simp] theorem State.setFp_draws (v : Word) : (s.setFp v).draws = s.draws := rfl

@[simp] theorem State.setSsp_g (v : Word) : (s.setSsp v).g = s.g := rfl
@[simp] theorem State.setSsp_fp (v : Word) : (s.setSsp v).fp = s.fp := rfl
@[simp] theorem State.setSsp_ssp (v : Word) : (s.setSsp v).ssp = v := rfl
@[simp] theorem State.setSsp_usp (v : Word) : (s.setSsp v).usp = s.usp := rfl
@[simp] theorem State.setSsp_pc (v : Word) : (s.setSsp v).pc = s.pc := rfl
@[simp] theorem State.setSsp_flag (v : Word) : (s.setSsp v).flag = s.flag := rfl
@[simp] theorem State.setSsp_halted (v : Word) : (s.setSsp v).halted = s.halted := rfl
@[simp] theorem State.setSsp_mem (v : Word) : (s.setSsp v).mem = s.mem := rfl
@[simp] theorem State.setSsp_mmu (v : Word) : (s.setSsp v).mmu = s.mmu := rfl
@[simp] theorem State.setSsp_io (v : Word) : (s.setSsp v).io = s.io := rfl
@[simp] theorem State.setSsp_draws (v : Word) : (s.setSsp v).draws = s.draws := rfl

@[simp] theorem State.setUsp_g (v : Word) : (s.setUsp v).g = s.g := rfl
@[simp] theorem State.setUsp_fp (v : Word) : (s.setUsp v).fp = s.fp := rfl
@[simp] theorem State.setUsp_ssp (v : Word) : (s.setUsp v).ssp = s.ssp := rfl
@[simp] theorem State.setUsp_usp (v : Word) : (s.setUsp v).usp = v := rfl
@[simp] theorem State.setUsp_pc (v : Word) : (s.setUsp v).pc = s.pc := rfl
@[simp] theorem State.setUsp_flag (v : Word) : (s.setUsp v).flag = s.flag := rfl
@[simp] theorem State.setUsp_halted (v : Word) : (s.setUsp v).halted = s.halted := rfl
@[simp] theorem State.setUsp_mem (v : Word) : (s.setUsp v).mem = s.mem := rfl
@[simp] theorem State.setUsp_mmu (v : Word) : (s.setUsp v).mmu = s.mmu := rfl
@[simp] theorem State.setUsp_io (v : Word) : (s.setUsp v).io = s.io := rfl
@[simp] theorem State.setUsp_draws (v : Word) : (s.setUsp v).draws = s.draws := rfl

@[simp] theorem State.setPc_g (v : Word) : (s.setPc v).g = s.g := rfl
@[simp] theorem State.setPc_fp (v : Word) : (s.setPc v).fp = s.fp := rfl
@[simp] theorem State.setPc_ssp (v : Word) : (s.setPc v).ssp = s.ssp := rfl
@[simp] theorem State.setPc_usp (v : Word) : (s.setPc v).usp = s.usp := rfl
@[simp] theorem State.setPc_pc (v : Word) : (s.setPc v).pc = v := rfl
@[simp] theorem State.setPc_flag (v : Word) : (s.setPc v).flag = s.flag := rfl
@[simp] theorem State.setPc_halted (v : Word) : (s.setPc v).halted = s.halted := rfl
@[simp] theorem State.setPc_mem (v : Word) : (s.setPc v).mem = s.mem := rfl
@[simp] theorem State.setPc_mmu (v : Word) : (s.setPc v).mmu = s.mmu := rfl
@[simp] theorem State.setPc_io (v : Word) : (s.setPc v).io = s.io := rfl
@[simp] theorem State.setPc_draws (v : Word) : (s.setPc v).draws = s.draws := rfl

@[simp] theorem State.setFlag_g (v : Flags) : (s.setFlag v).g = s.g := rfl
@[simp] theorem State.setFlag_fp (v : Flags) : (s.setFlag v).fp = s.fp := rfl
@[simp] theorem State.setFlag_ssp (v : Flags) : (s.setFlag v).ssp = s.ssp := rfl
@[simp] theorem State.setFlag_usp (v : Flags) : (s.setFlag v).usp = s.usp := rfl
@[simp] theorem State.setFlag_pc (v : Flags) : (s.setFlag v).pc = s.pc := rfl
@[simp] theorem State.setFlag_flag (v : Flags) : (s.setFlag v).flag = v := rfl
@[simp] theorem State.setFlag_halted (v : Flags) : (s.setFlag v).halted = s.halted := rfl
@[simp] theorem State.setFlag_mem (v : Flags) : (s.setFlag v).mem = s.mem := rfl
@[simp] theorem State.setFlag_mmu (v : Flags) : (s.setFlag v).mmu = s.mmu := rfl
@[simp] theorem State.setFlag_io (v : Flags) : (s.setFlag v).io = s.io := rfl
@[simp] theorem State.setFlag_draws (v : Flags) : (s.setFlag v).draws = s.draws := rfl

@[simp] theorem State.setHalted_g (v : Bool) : (s.setHalted v).g = s.g := rfl
@[simp] theorem State.setHalted_fp (v : Bool) : (s.setHalted v).fp = s.fp := rfl
@[simp] theorem State.setHalted_ssp (v : Bool) : (s.setHalted v).ssp = s.ssp := rfl
@[simp] theorem State.setHalted_usp (v : Bool) : (s.setHalted v).usp = s.usp := rfl
@[simp] theorem State.setHalted_pc (v : Bool) : (s.setHalted v).pc = s.pc := rfl
@[simp] theorem State.setHalted_flag (v : Bool) : (s.setHalted v).flag = s.flag := rfl
@[simp] theorem State.setHalted_halted (v : Bool) : (s.setHalted v).halted = v := rfl
@[simp] theorem State.setHalted_mem (v : Bool) : (s.setHalted v).mem = s.mem := rfl
@[simp] theorem State.setHalted_mmu (v : Bool) : (s.setHalted v).mmu = s.mmu := rfl
@[simp] theorem State.setHalted_io (v : Bool) : (s.setHalted v).io = s.io := rfl
@[simp] theorem State.setHalted_draws (v : Bool) : (s.setHalted v).draws = s.draws := rfl

@[simp] theorem State.setMem_g (v : Memory) : (s.setMem v).g = s.g := rfl
@[simp] theorem State.setMem_fp (v : Memory) : (s.setMem v).fp = s.fp := rfl
@[simp] theorem State.setMem_ssp (v : Memory) : (s.setMem v).ssp = s.ssp := rfl
@[simp] theorem State.setMem_usp (v : Memory) : (s.setMem v).usp = s.usp := rfl
@[simp] theorem State.setMem_pc (v : Memory) : (s.setMem v).pc = s.pc := rfl
@[simp] theorem State.setMem_flag (v : Memory) : (s.setMem v).flag = s.flag := rfl
@[simp] theorem State.setMem_halted (v : Memory) : (s.setMem v).halted = s.halted := rfl
@[simp] theorem State.setMem_mem (v : Memory) : (s.setMem v).mem = v := rfl
@[simp] theorem State.setMem_mmu (v : Memory) : (s.setMem v).mmu = s.mmu := rfl
@[simp] theorem State.setMem_io (v : Memory) : (s.setMem v).io = s.io := rfl
@[simp] theorem State.setMem_draws (v : Memory) : (s.setMem v).draws = s.draws := rfl

@[simp] theorem State.setMmu_g (v : Mmu) : (s.setMmu v).g = s.g := rfl
@[simp] theorem State.setMmu_fp (v : Mmu) : (s.setMmu v).fp = s.fp := rfl
@[simp] theorem State.setMmu_ssp (v : Mmu) : (s.setMmu v).ssp = s.ssp := rfl
@[simp] theorem State.setMmu_usp (v : Mmu) : (s.setMmu v).usp = s.usp := rfl
@[simp] theorem State.setMmu_pc (v : Mmu) : (s.setMmu v).pc = s.pc := rfl
@[simp] theorem State.setMmu_flag (v : Mmu) : (s.setMmu v).flag = s.flag := rfl
@[simp] theorem State.setMmu_halted (v : Mmu) : (s.setMmu v).halted = s.halted := rfl
@[simp] theorem State.setMmu_mem (v : Mmu) : (s.setMmu v).mem = s.mem := rfl
@[simp] theorem State.setMmu_mmu (v : Mmu) : (s.setMmu v).mmu = v := rfl
@[simp] theorem State.setMmu_io (v : Mmu) : (s.setMmu v).io = s.io := rfl
@[simp] theorem State.setMmu_draws (v : Mmu) : (s.setMmu v).draws = s.draws := rfl

@[simp] theorem State.setIo_g (v : Io) : (s.setIo v).g = s.g := rfl
@[simp] theorem State.setIo_fp (v : Io) : (s.setIo v).fp = s.fp := rfl
@[simp] theorem State.setIo_ssp (v : Io) : (s.setIo v).ssp = s.ssp := rfl
@[simp] theorem State.setIo_usp (v : Io) : (s.setIo v).usp = s.usp := rfl
@[simp] theorem State.setIo_pc (v : Io) : (s.setIo v).pc = s.pc := rfl
@[simp] theorem State.setIo_flag (v : Io) : (s.setIo v).flag = s.flag := rfl
@[simp] theorem State.setIo_halted (v : Io) : (s.setIo v).halted = s.halted := rfl
@[simp] theorem State.setIo_mem (v : Io) : (s.setIo v).mem = s.mem := rfl
@[simp] theorem State.setIo_mmu (v : Io) : (s.setIo v).mmu = s.mmu := rfl
@[simp] theorem State.setIo_io (v : Io) : (s.setIo v).io = v := rfl
@[simp] theorem State.setIo_draws (v : Io) : (s.setIo v).draws = s.draws := rfl

@[simp] theorem State.setDraws_g (v : Nat) : (s.setDraws v).g = s.g := rfl
@[simp] theorem State.setDraws_fp (v : Nat) : (s.setDraws v).fp = s.fp := rfl
@[simp] theorem State.setDraws_ssp (v : Nat) : (s.setDraws v).ssp = s.ssp := rfl
@[simp] theorem State.setDraws_usp (v : Nat) : (s.setDraws v).usp = s.usp := rfl
@[simp] theorem State.setDraws_pc (v : Nat) : (s.setDraws v).pc = s.pc := rfl
@[simp] theorem State.setDraws_flag (v : Nat) : (s.setDraws v).flag = s.flag := rfl
@[simp] theorem State.setDraws_halted (v : Nat) : (s.setDraws v).halted = s.halted := rfl
@[simp] theorem State.setDraws_mem (v : Nat) : (s.setDraws v).mem = s.mem := rfl
@[simp] theorem State.setDraws_mmu (v : Nat) : (s.setDraws v).mmu = s.mmu := rfl
@[simp] theorem State.setDraws_io (v : Nat) : (s.setDraws v).io = s.io := rfl
@[simp] theorem State.setDraws_draws (v : Nat) : (s.setDraws v).draws = v := rfl

end Sys2Proof.Machine
end

