-- ==== Sys2Proof/Laws/Ops.lean ====
section
/-! SUPPORT. What each shared operation over memory, registers, stack and traps does, said once. -/

namespace Sys2Proof.Machine

/-! ## Views that an update leaves alone -/

theorem romAt_congr {s t : State} (h : t.mmu = s.mmu) (a : Nat) : romAt t a = romAt s a := by
  simp [romAt, h]

theorem romTouched_congr {s t : State} (h : t.mmu = s.mmu) (w : Width) (a : Nat) :
    romTouched w a t = romTouched w a s := by
  simp [romTouched, romAt_congr h]

/-- An access misses the ROM when each of its bytes does. -/
theorem romTouched_eq_false_iff (w : Width) (a : Nat) (s : State) :
    romTouched w a s = false ↔ romAt s a = false ∧ (w = .word → romAt s (a + 1) = false) := by
  cases w <;> simp [romTouched]

/-- The ROM, while it is attached, covers the address at which execution starts (70_reset_and_hazards.md R261). -/
theorem romAt_resetPc {s : State} (h : s.mmu.iplDetached = false) : romAt s Config.resetPc.toNat = true := by
  simp [romAt, h, Config.romBase, Config.romLimit, Nat.lt_of_lt_of_le (Nat.lt_succ_self _) (Nat.le_max_right _ _)]

theorem mmuOn_congr {s t : State} (h : t.mmu = s.mmu) : mmuOn t = mmuOn s := by
  simp [mmuOn, h]

theorem byteAt_congr {s t : State} (hm : t.mem = s.mem) (hu : t.mmu = s.mmu) (a : Nat) : byteAt t a = byteAt s a := by
  simp [byteAt, romAt_congr hu, hm]

theorem loadBytes_congr {s t : State} (hm : t.mem = s.mem) (hu : t.mmu = s.mmu) (w : Width) (a : Nat) :
    loadBytes w a t = loadBytes w a s := by
  cases w <;> simp [loadBytes, byteAt_congr hm hu]

/-! ## Memory accesses -/

theorem memRead_ok_iff (w : Width) (a : Word) (s : State) (v : Word) :
    memRead w a s = .ok v ↔ (w = .word → isOdd a = false) ∧ mmuOn s = false ∧ v = loadBytes w a.toNat s := by
  cases w <;> cases ho : isOdd a <;> cases hm : mmuOn s <;>
    simp [memRead, translate, ho, hm, eq_comm]

theorem memWrite_ok_iff (w : Width) (a v : Word) (s t : State) :
    memWrite w a v s = .ok t ↔ (w = .word → isOdd a = false) ∧ mmuOn s = false ∧ romTouched w a.toNat s = false ∧
      t = s.setMem (storeBytes w a.toNat v s.mem) := by
  cases hr : romTouched w a.toNat s <;> cases w <;> cases ho : isOdd a <;> cases hm : mmuOn s <;>
    simp [memWrite, translate, ho, hm, hr, eq_comm]

/-- The bytes a store of the given width changes. -/
theorem read_storeBytes (w : Width) (pa : Nat) (v : Word) (m : Memory) (x : Nat) :
    Memory.read (storeBytes w pa v m) x =
      match w with
      | .word => if x = pa + 1 then loByte v else if x = pa then hiByte v else Memory.read m x
      | .byte => if x = pa then loByte v else Memory.read m x := by
  cases w <;> simp [storeBytes, Memory.read_write]

theorem wf_storeBytes {w : Width} {a : Word} (v : Word) {m : Memory} (ho : w = .word → isOdd a = false)
    (h : Memory.wf 65536 m = true) : Memory.wf 65536 (storeBytes w a.toNat v m) = true := by
  cases w with
  | byte => exact Memory.wf_write _ a.isLt h
  | word =>
    have hodd : a.toNat % 2 ≠ 1 := by
      have := ho rfl
      simpa [isOdd, BitVec.getLsbD, Nat.testBit, Nat.and_comm, Nat.and_one_is_mod] using this
    have ha := a.isLt
    exact Memory.wf_write _ (by omega) (Memory.wf_write _ ha h)

theorem isOdd_eq (a : Word) : isOdd a = decide (a.toNat % 2 = 1) := by
  simp [isOdd, BitVec.getLsbD, Nat.testBit, beq_eq_decide]

/-- Taking 2 away keeps an address's parity. -/
theorem isOdd_sub_two (a : Word) : isOdd (a - 2) = isOdd a := by
  have h : (a - 2).toNat % 2 = a.toNat % 2 := by
    have := a.isLt
    rw [BitVec.toNat_sub]
    change (2 ^ 16 - 2 + a.toNat) % 2 ^ 16 % 2 = _
    omega
  rw [isOdd_eq, isOdd_eq, h]

/-- Adding 2 keeps an address's parity. -/
theorem isOdd_add_two (a : Word) : isOdd (a + 2) = isOdd a := by
  have h : (a + 2).toNat % 2 = a.toNat % 2 := by
    have := a.isLt
    rw [BitVec.toNat_add]
    change (a.toNat + 2) % 2 ^ 16 % 2 = _
    omega
  rw [isOdd_eq, isOdd_eq, h]

/-! ## Registers -/

theorem readReg_sp_priv {s : State} (h : s.flag.p = true) : readReg .sp s = s.ssp := by simp [readReg, h]

theorem readReg_sp_user {s : State} (h : s.flag.p = false) : readReg .sp s = s.usp := by simp [readReg, h]

/-- A register write leaves every part of the state but the registers and FLAG alone (10_state.md R25). -/
theorem writeReg_keeps (r : Reg) (v : Word) (s : State) :
    (writeReg r v s).mem = s.mem ∧ (writeReg r v s).mmu = s.mmu ∧ (writeReg r v s).io = s.io ∧
      (writeReg r v s).halted = s.halted ∧ (writeReg r v s).draws = s.draws ∧ (writeReg r v s).pc = s.pc := by
  cases r <;> simp [writeReg]
  split <;> simp

/-- A register write changes FLAG only when FLAG is the register (10_state.md R25). -/
theorem writeReg_flag (r : Reg) (v : Word) (s : State) (h : r ≠ .flag) : (writeReg r v s).flag = s.flag := by
  cases r <;> simp [writeReg] at h ⊢
  split <;> simp

/-! ## The stack -/

theorem push_ok_iff (v : Word) (s t : State) :
    push v s = .ok t ↔ isOdd (readReg .sp s) = false ∧ mmuOn s = false ∧
      romTouched .word (readReg .sp s - 2).toNat s = false ∧
      t = writeReg .sp (readReg .sp s - 2) (s.setMem (storeBytes .word (readReg .sp s - 2).toNat v s.mem)) := by
  unfold push
  constructor
  · intro h
    split at h
    · cases h
    · rename_i u hu
      rw [memWrite_ok_iff] at hu
      obtain ⟨ho, hm, hr, rfl⟩ := hu
      exact ⟨isOdd_sub_two _ ▸ ho rfl, hm, hr, by simpa using h.symm⟩
  · rintro ⟨ho, hm, hr, rfl⟩
    rw [(memWrite_ok_iff .word _ v s _).mpr ⟨fun _ => by rwa [isOdd_sub_two], hm, hr, rfl⟩]

theorem pop_ok_iff (s : State) (v : Word) (t : State) :
    pop s = .ok (v, t) ↔ isOdd (readReg .sp s) = false ∧ mmuOn s = false ∧
      v = loadBytes .word (readReg .sp s).toNat s ∧ t = writeReg .sp (readReg .sp s + 2) s := by
  unfold pop
  constructor
  · intro h
    split at h
    · cases h
    · rename_i u hu
      rw [memRead_ok_iff] at hu
      obtain ⟨ho, hm, rfl⟩ := hu
      simp only [Except.ok.injEq, Prod.mk.injEq] at h
      exact ⟨ho rfl, hm, h.1.symm, h.2.symm⟩
  · rintro ⟨ho, hm, rfl, rfl⟩
    rw [(memRead_ok_iff .word _ s _).mpr ⟨fun _ => ho, hm, rfl⟩]

/-! ## Traps -/

/-- The RAM after the two pushes of trap entry (60_exceptions.md R215). -/
def trapFrame (spc : Word) (s : State) : Memory :=
  storeBytes .word (s.ssp - 2 - 2).toNat s.flag.toWord (storeBytes .word (s.ssp - 2).toNat spc s.mem)

/-- Everything trap entry does, when it does not stop (60_exceptions.md R215, R216). -/
theorem trapEntry_ok_iff (vec spc : Word) (s t : State) :
    trapEntry vec spc s = .ok t ↔
      isOdd s.ssp = false ∧ mmuOn s = false ∧ romTouched .word (s.ssp - 2).toNat s = false ∧
        romTouched .word (s.ssp - 2 - 2).toNat s = false ∧ isOdd vec = false ∧
        t = (((s.setFlag s.flag.entered).setSsp (s.ssp - 2 - 2)).setMem (trapFrame spc s)).setPc
          (loadBytes .word vec.toNat (s.setMem (trapFrame spc s))) := by
  have hp : (s.setFlag s.flag.entered).flag.p = true := rfl
  have hmm : ∀ u : State, u.mmu = s.mmu → mmuOn u = mmuOn s := fun u h => mmuOn_congr h
  unfold trapEntry
  constructor
  · intro h
    split at h
    · cases h
    · rename_i s1 h1
      split at h
      · cases h
      · rename_i s2 h2
        split at h
        · cases h
        · rename_i handler h3
          rw [push_ok_iff] at h1
          obtain ⟨o1, m1, r1, rfl⟩ := h1
          rw [readReg_sp_priv hp] at o1 r1 h2
          rw [push_ok_iff] at h2
          obtain ⟨o2, m2, r2, rfl⟩ := h2
          rw [memRead_ok_iff] at h3
          obtain ⟨o3, m3, rfl⟩ := h3
          simp only [Except.ok.injEq] at h
          subst h
          refine ⟨o1, m1, r1, ?_, o3 rfl, ?_⟩
          · simpa [readReg, writeReg, hp, romTouched, romAt, Flags.entered] using r2
          · simp [readReg, writeReg, Flags.entered, trapFrame, State.setPc, State.setMem, State.setSsp, State.setFlag,
              loadBytes, byteAt, romAt]
  · rintro ⟨o, m, r1, r2, ov, rfl⟩
    rw [(push_ok_iff spc (s.setFlag s.flag.entered) _).mpr
      ⟨by rw [readReg_sp_priv hp]; exact o, m, by rw [readReg_sp_priv hp]; exact r1, rfl⟩]
    simp only
    rw [(push_ok_iff _ _ _).mpr ⟨by simpa [readReg, writeReg, Flags.entered] using (isOdd_sub_two s.ssp).trans o,
      by simpa [readReg, writeReg, Flags.entered, mmuOn] using m,
      by simpa [readReg, writeReg, Flags.entered, romTouched, romAt] using r2, rfl⟩]
    simp only
    rw [(memRead_ok_iff _ _ _ _).mpr ⟨fun _ => ov, by simpa [readReg, writeReg, Flags.entered, mmuOn] using m, rfl⟩]
    simp [readReg, writeReg, Flags.entered, trapFrame, State.setPc, State.setMem, State.setSsp, State.setFlag,
              loadBytes, byteAt, romAt]

theorem enter_next_iff (vec spc : Word) (s t : State) : enter vec spc s = .next t ↔ trapEntry vec spc s = .ok t := by
  unfold enter
  split <;> rename_i h <;> simp [h]

theorem enter_not_fault (vec spc : Word) (s : State) (f : Fault) : enter vec spc s ≠ .fault f := by
  unfold enter
  split <;> simp

theorem takeException_next_iff (k : Exc) (next : Word) (s t : State) :
    takeException k next s = .next t ↔
      trapEntry (vectorAddr (excNumber k)) (savedPc k next s) (recordCause k s) = .ok t :=
  enter_next_iff _ _ _ _

/-- What an exception records leaves everything but the MMU's cause bit and missing page alone. -/
theorem recordCause_keeps (k : Exc) (s : State) :
    ∃ c p, recordCause k s = s.setMmu { s.mmu with cause := c, missPage := p } := by
  cases k with
  | memoryViolation c => exact ⟨_, s.mmu.missPage, rfl⟩
  | tlbMiss page => exact ⟨s.mmu.cause, page, rfl⟩
  | zeroDivide => exact ⟨s.mmu.cause, s.mmu.missPage, rfl⟩
  | privilegeViolation => exact ⟨s.mmu.cause, s.mmu.missPage, rfl⟩
  | undefinedInstruction => exact ⟨s.mmu.cause, s.mmu.missPage, rfl⟩
  | supervisorCall => exact ⟨s.mmu.cause, s.mmu.missPage, rfl⟩

/-- The two ways an instruction answers a next state: its own effect, or an exception it takes. -/
theorem settle_next_iff (s : State) (next : Word) (r : Except Stop State) (t : State) :
    settle s next r = .next t ↔ r = .ok t ∨ ∃ k, r = .error (.exc k) ∧ takeException k next s = .next t := by
  cases r with
  | ok u => simp [settle]
  | error e => cases e <;> simp [settle]

@[simp] theorem settle_ok (s : State) (next : Word) (t : State) : settle s next (.ok t) = .next t := rfl

@[simp] theorem settle_exc (s : State) (next : Word) (k : Exc) :
    settle s next (.error (.exc k)) = takeException k next s := rfl

@[simp] theorem settle_refuse (s : State) (next : Word) (r : Refusal) :
    settle s next (.error (.refuse r)) = .refused r := rfl

/-- RETI's effect, when it does not stop (45_stack_return.md R191). -/
theorem reti_ok_iff (s t : State) :
    reti s = .ok t ↔ isOdd (readReg .sp s) = false ∧ mmuOn s = false ∧
      t = ((writeReg .sp (readReg .sp s + 2 + 2) s).setFlag
            (s.flag.write (loadBytes .word (readReg .sp s).toNat s))).setPc
          (loadBytes .word (readReg .sp s + 2).toNat s) := by
  have hsp : readReg .sp (writeReg .sp (readReg .sp s + 2) s) = readReg .sp s + 2 := by
    cases hp : s.flag.p <;> simp [readReg, writeReg, hp]
  have hk := writeReg_keeps .sp (readReg .sp s + 2) s
  have hww : writeReg .sp (readReg .sp s + 2 + 2) (writeReg .sp (readReg .sp s + 2) s) =
      writeReg .sp (readReg .sp s + 2 + 2) s := by
    cases hp : s.flag.p <;> simp [readReg, writeReg, hp] <;> rfl
  have hpop : ∀ v u, pop (writeReg .sp (readReg .sp s + 2) s) = .ok (v, u) ↔
      isOdd (readReg .sp s) = false ∧ mmuOn s = false ∧ v = loadBytes .word (readReg .sp s + 2).toNat s ∧
        u = writeReg .sp (readReg .sp s + 2 + 2) s := by
    intro v u
    rw [pop_ok_iff, hsp, isOdd_add_two, mmuOn_congr hk.2.1, loadBytes_congr hk.1 hk.2.1, hww]
  unfold reti
  constructor
  · intro h
    split at h
    · cases h
    · rename_i f s1 h1
      rw [pop_ok_iff] at h1
      obtain ⟨o, m, rfl, rfl⟩ := h1
      split at h
      · cases h
      · rename_i v u h2
        rw [hpop] at h2
        obtain ⟨_, _, rfl, rfl⟩ := h2
        exact ⟨o, m, by simpa using h.symm⟩
  · rintro ⟨o, m, rfl⟩
    rw [(pop_ok_iff s _ _).mpr ⟨o, m, rfl, rfl⟩]
    simp only
    rw [(hpop _ _).mpr ⟨o, m, rfl, rfl⟩]

end Sys2Proof.Machine
end

