-- ==== Sys2Proof/Laws/Shapes.lean ====
section
/-! SUPPORT. What each shared effect of an instruction does when it completes, said once. -/

namespace Sys2Proof.Machine

theorem operandValue_mem (ea : MemEa) (s : State) :
    operandValue (.mem ea) s = memRead (memWidth ea) (memAddr ea s) s := rfl

/-- The operand forms that read no memory always have a value; those that do have one exactly when the access is
aligned and the MMU off (30_encoding.md R90, 20_memory.md R54, R62). -/
theorem operandValue_ok_iff (x : Operand) (s : State) (v : Word) :
    operandValue x s = .ok v ↔
      match x with
      | .mem ea => (memWidth ea = .word → isOdd (memAddr ea s) = false) ∧ mmuOn s = false ∧
          v = loadBytes (memWidth ea) (memAddr ea s).toNat s
      | .imm w => v = w
      | .reg rs => v = readReg rs s
      | .imm4 i => v = BitVec.ofInt 16 i := by
  cases x with
  | mem ea => exact memRead_ok_iff _ _ _ _
  | imm w => simp [operandValue, eq_comm]
  | reg rs => simp [operandValue, eq_comm]
  | imm4 i => simp [operandValue, eq_comm]

theorem loadBody_ok_iff (rd : Reg) (x : Operand) (s t : State) :
    loadBody rd x s = .ok t ↔
      ∃ v, operandValue x s = .ok v ∧ t = (writeReg rd v s).setPc (s.pc + operandBytes x) := by
  unfold loadBody
  cases operandValue x s with
  | error e => simp
  | ok v => simpa using eq_comm

theorem storeBody_ok_iff (rd : Reg) (x : MemEa) (s t : State) :
    storeBody rd x s = .ok t ↔
      (memWidth x = .word → isOdd (memAddr x s) = false) ∧ mmuOn s = false ∧
        romTouched (memWidth x) (memAddr x s).toNat s = false ∧
        t = (s.setMem (storeBytes (memWidth x) (memAddr x s).toNat (readReg rd s) s.mem)).setPc
          (s.pc + memBytes x) := by
  unfold storeBody
  constructor
  · intro h
    split at h
    · cases h
    · rename_i u hu
      obtain ⟨a, b, c, rfl⟩ := (memWrite_ok_iff _ _ _ _ _).mp hu
      exact ⟨a, b, c, by simpa using h.symm⟩
  · rintro ⟨a, b, c, rfl⟩
    rw [(memWrite_ok_iff _ _ _ _ _).mpr ⟨a, b, c, rfl⟩]

theorem aluBody_ok_iff (op : AluOp) (rd : Reg) (x : Operand) (s t : State) :
    aluBody op rd x s = .ok t ↔
      ¬(writesRd op = true ∧ rd = .flag) ∧
        ∃ b, operandValue x s = .ok b ∧ ¬(divides op = true ∧ b = 0) ∧
          t = (aluApply op rd b s).setPc (s.pc + operandBytes x) := by
  unfold aluBody
  by_cases h : writesRd op = true ∧ rd = .flag
  · simp [h]
  · rw [if_neg h]
    cases operandValue x s with
    | error e => simp
    | ok b =>
      by_cases hz : divides op = true ∧ b = 0
      · simp [hz]
      · simp only [if_false, h, hz, not_false_eq_true, true_and, Except.ok.injEq, exists_eq_left']
        exact eq_comm

theorem callBody_ok_iff (x : JumpEa) (s t : State) :
    callBody x s = .ok t ↔ ∃ u, push (s.pc + 4) s = .ok u ∧ t = u.setPc (jumpTarget x s) := by
  unfold callBody
  cases push (s.pc + 4) s with
  | error e => simp
  | ok u => simpa using eq_comm

theorem pushBody_ok_iff (rd : Reg) (s t : State) :
    pushBody rd s = .ok t ↔
      namesStackPointer rd s = false ∧ ∃ u, push (readReg rd s) s = .ok u ∧ t = u.setPc (s.pc + 2) := by
  unfold pushBody
  cases hn : namesStackPointer rd s
  · simp only [Bool.false_eq_true, if_false]
    cases push (readReg rd s) s with
    | error e => simp
    | ok u => simpa using eq_comm
  · simp

theorem popBody_ok_iff (rd : Reg) (s t : State) :
    popBody rd s = .ok t ↔
      namesStackPointer rd s = false ∧ ∃ v u, pop s = .ok (v, u) ∧ t = (writeReg rd v u).setPc (s.pc + 2) := by
  unfold popBody
  cases hn : namesStackPointer rd s
  · simp only [Bool.false_eq_true, if_false]
    cases pop s with
    | error e => simp
    | ok u =>
      obtain ⟨v, u⟩ := u
      simpa [and_assoc] using eq_comm
  · simp

theorem retBody_ok_iff (s t : State) : retBody s = .ok t ↔ ∃ v u, pop s = .ok (v, u) ∧ t = u.setPc v := by
  unfold retBody
  cases pop s with
  | error e => simp
  | ok u =>
    obtain ⟨v, u⟩ := u
    simpa [and_assoc] using eq_comm

theorem inputBody_ok_iff (rd : Reg) (x : IoEa) (s t : State) :
    inputBody rd x s = .ok t ↔
      ioAllowed s = true ∧ ioRefusal (ioWidth x) (ioAddr x s) = none ∧
        t = (writeReg rd (ioValue (ioWidth x) (ioAddr x s) s)
          (logIo (.read (ioWidth x) (ioAddr x s)) s)).setPc (s.pc + ioBytes x) := by
  unfold inputBody
  cases hp : ioAllowed s
  · simp
  · simp only [if_true]
    cases ioRefusal (ioWidth x) (ioAddr x s) with
    | some r => simp
    | none => simpa using eq_comm

theorem outputBody_ok_iff (rd : Reg) (x : IoEa) (s t : State) :
    outputBody rd x s = .ok t ↔
      ioAllowed s = true ∧ ioRefusal (ioWidth x) (ioAddr x s) = none ∧
        ∃ u, ioWriteBytes (ioWidth x) (ioAddr x s) (readReg rd s) s = .ok u ∧
          t = (logIo (.write (ioWidth x) (ioAddr x s) (outValue (ioWidth x) (readReg rd s))) u).setPc
            (s.pc + ioBytes x) := by
  unfold outputBody
  cases hp : ioAllowed s
  · simp
  · simp only [if_true]
    cases ioRefusal (ioWidth x) (ioAddr x s) with
    | some r => simp
    | none =>
      cases ioWriteBytes (ioWidth x) (ioAddr x s) (readReg rd s) s with
      | error e => simp
      | ok u => simpa using eq_comm

theorem getLsbD_sourceBit (b : Bool) {k : Nat} (hk : k < 10) (j : Nat) :
    (sourceBit b k).getLsbD j = (b && decide (j = k)) := by
  unfold sourceBit
  cases b with
  | false => simp
  | true =>
    have h : (1 <<< k : BitVec 10) = BitVec.twoPow 10 k := rfl
    by_cases e : j = k
    · subst e; simp [h, hk]
    · simp [h, BitVec.getLsbD_twoPow, e, Ne.symm e]

/-- The enable bits by source: which byte, which bit of it (60_exceptions.md R201). -/
theorem getLsbD_enabledBy (a : Nat) (v : Byte) (j : Nat) :
    (enabledBy a v).getLsbD j =
      (decide (a = 0x02) && v.getLsbD 7 && decide (j = 0) || decide (a = 0x06) && v.getLsbD 7 && decide (j = 1) ||
        decide (a = 0x2B) && v.getLsbD 6 && decide (j = 2) || decide (a = 0x2B) && v.getLsbD 7 && decide (j = 3) ||
        decide (a = 0x0B) && v.getLsbD 6 && decide (j = 4) || decide (a = 0x0B) && v.getLsbD 7 && decide (j = 5) ||
        decide (a = 0x0F) && v.getLsbD 6 && decide (j = 6) || decide (a = 0x0F) && v.getLsbD 7 && decide (j = 7) ||
        decide (a = 0x11) && v.getLsbD 7 && decide (j = 8) || decide (a = 0x25) && v != 0 && decide (j = 9) ||
        decide (a = 0x27) && v != 0 && decide (j = 9)) := by
  unfold enabledBy
  split
  case h_9 =>
    rename_i h1 h2 h3 h4 h5 h6 h7 h8
    simp [eq_false h1, eq_false h2, eq_false h3, eq_false h4, eq_false h5, eq_false h6, eq_false h7, eq_false h8]
  all_goals simp only [BitVec.getLsbD_or, getLsbD_sourceBit _ (by decide : 0 < 10),
    getLsbD_sourceBit _ (by decide : 1 < 10), getLsbD_sourceBit _ (by decide : 2 < 10),
    getLsbD_sourceBit _ (by decide : 3 < 10), getLsbD_sourceBit _ (by decide : 4 < 10),
    getLsbD_sourceBit _ (by decide : 5 < 10), getLsbD_sourceBit _ (by decide : 6 < 10),
    getLsbD_sourceBit _ (by decide : 7 < 10), getLsbD_sourceBit _ (by decide : 8 < 10),
    getLsbD_sourceBit _ (by decide : 9 < 10)]
  all_goals simp

/-- The output registers after a write of one byte (60_exceptions.md R236). -/
theorem read_deviceWrite (a : Nat) (v : Byte) (d : Io) (k : Nat) :
    Memory.read (deviceWrite a v d).latch k = if k = a then v &&& writeMask a else Memory.read d.latch k :=
  Memory.read_write _ _ _ _

/-- A write to a port changes the MMU's registers or the devices' and nothing else (20_memory.md R59). -/
theorem portWrite_ok_iff (a : Nat) (v : Byte) (s t : State) :
    portWrite a v s = .ok t ↔
      ¬(a = 0xF1 ∧ s.mmu.iplDetached = true ∧ v.getLsbD 0 = false) ∧
        t = if 0xF0 ≤ a ∧ a ≤ 0xF7 then s.setMmu (mmuWrite a v s.mmu) else s.setIo (deviceWrite a v s.io) := by
  unfold portWrite
  by_cases h : a = 0xF1 ∧ s.mmu.iplDetached = true ∧ v.getLsbD 0 = false
  · rw [if_pos h]
    exact ⟨fun hc => (nomatch hc), fun hc => absurd h hc.1⟩
  · rw [if_neg h]
    by_cases h' : 0xF0 ≤ a ∧ a ≤ 0xF7
    · simp only [h', if_true, h, not_false_eq_true, true_and, Except.ok.injEq]
      exact eq_comm
    · simp only [h', if_false, h, not_false_eq_true, true_and, Except.ok.injEq]
      exact eq_comm

/-- An I/O write changes the MMU's registers and the devices' and nothing else (20_memory.md R59). -/
theorem ioWriteBytes_keeps {w : Width} {a v : Word} {s t : State} (h : ioWriteBytes w a v s = .ok t) :
    ∃ m d, t = (s.setMmu m).setIo d := by
  have one : ∀ {a v} {s t : State}, portWrite a v s = .ok t → ∃ m d, t = (s.setMmu m).setIo d := by
    intro a v s t h
    obtain ⟨_, rfl⟩ := (portWrite_ok_iff _ _ _ _).mp h
    split
    · exact ⟨mmuWrite a v s.mmu, s.io, rfl⟩
    · exact ⟨s.mmu, deviceWrite a v s.io, rfl⟩
  cases w with
  | byte => exact one h
  | word =>
    simp only [ioWriteBytes] at h
    split at h
    · cases h
    · rename_i s1 h1
      obtain ⟨m1, d1, rfl⟩ := one h1
      split at h
      · cases h
      · rename_i s2 h2
        obtain ⟨m2, d2, rfl⟩ := one h2
        split at h <;> (cases h; exact ⟨_, _, rfl⟩)

end Sys2Proof.Machine
end

