-- ==== Sys2Proof/Laws/Exec.lean ====
section
/-! SUPPORT. `exec` by shape: each row's meaning is its shape's shared effect, so that a fact about every instruction has
fourteen cases. -/

namespace Sys2Proof.Machine

/-- The shared effect of each shape. -/
def performForm (f : Form) (s : State) : Result :=
  match f with
  | .no => noOperation s
  | .ld rd x => load rd x s
  | .st rd x => store rd x s
  | .alu op rd x => alu op rd x s
  | .jump cond x => jump cond x s
  | .call x => call x s
  | .inp rd x => input rd x s
  | .out rd x => output rd x s
  | .push rd => pushReg rd s
  | .pop rd => popReg rd s
  | .ret => returnFromCall s
  | .reti => returnFromTrap s
  | .svc => supervisorCall s
  | .halt => halt s

theorem exec_eq_performForm (i : Instr) (s : State) : exec i s = performForm i.form s := by
  cases i <;> rfl

@[simp] theorem form_ofLd (rd : Reg) (x : Operand) : (Instr.ofLd rd x).form = .ld rd x := by
  cases x with
  | mem ea => cases ea <;> rfl
  | _ => rfl

@[simp] theorem form_ofSt (rd : Reg) (x : MemEa) : (Instr.ofSt rd x).form = .st rd x := by
  cases x <;> rfl

@[simp] theorem form_ofAlu (op : AluOp) (rd : Reg) (x : Operand) : (Instr.ofAlu op rd x).form = .alu op rd x := by
  cases x with
  | mem ea => cases op <;> cases ea <;> rfl
  | _ => cases op <;> rfl

@[simp] theorem form_ofJump (cond : Cond) (x : JumpEa) : (Instr.ofJump cond x).form = .jump cond x := by
  cases cond <;> cases x <;> rfl

@[simp] theorem form_ofCall (x : JumpEa) : (Instr.ofCall x).form = .call x := by
  cases x <;> rfl

@[simp] theorem form_ofIn (rd : Reg) (x : IoEa) : (Instr.ofIn rd x).form = .inp rd x := by
  cases x <;> rfl

@[simp] theorem form_ofOut (rd : Reg) (x : IoEa) : (Instr.ofOut rd x).form = .out rd x := by
  cases x <;> rfl

theorem exec_ofLd (rd : Reg) (x : Operand) (s : State) : exec (.ofLd rd x) s = load rd x s := by
  rw [exec_eq_performForm, form_ofLd]; rfl

theorem exec_ofSt (rd : Reg) (x : MemEa) (s : State) : exec (.ofSt rd x) s = store rd x s := by
  rw [exec_eq_performForm, form_ofSt]; rfl

theorem exec_ofAlu (op : AluOp) (rd : Reg) (x : Operand) (s : State) :
    exec (.ofAlu op rd x) s = alu op rd x s := by
  rw [exec_eq_performForm, form_ofAlu]; rfl

theorem exec_ofJump (cond : Cond) (x : JumpEa) (s : State) : exec (.ofJump cond x) s = jump cond x s := by
  rw [exec_eq_performForm, form_ofJump]; rfl

theorem exec_ofCall (x : JumpEa) (s : State) : exec (.ofCall x) s = call x s := by
  rw [exec_eq_performForm, form_ofCall]; rfl

theorem exec_ofIn (rd : Reg) (x : IoEa) (s : State) : exec (.ofIn rd x) s = input rd x s := by
  rw [exec_eq_performForm, form_ofIn]; rfl

theorem exec_ofOut (rd : Reg) (x : IoEa) (s : State) : exec (.ofOut rd x) s = output rd x s := by
  rw [exec_eq_performForm, form_ofOut]; rfl

/-- The end of a step changes only memory, and that only once an SD transfer was started, and the draw. -/
theorem endStep_eq (s : State) :
    ∃ m, endStep s = (s.setMem m).setDraws (s.draws + 1) ∧ (s.io.usdStarted = false → m = s.mem) := by
  unfold endStep busWrites
  split
  · rename_i h
    exact ⟨_, rfl, by simp [h]⟩
  · exact ⟨s.mem, rfl, fun _ => rfl⟩

theorem finishStep_next_iff (r : Result) (t : State) : finishStep r = .next t ↔ ∃ u, r = .next u ∧ t = endStep u := by
  cases r <;> simp [finishStep, eq_comm]

end Sys2Proof.Machine
end

