-- ==== Sys2Proof/Laws/Frames.lean ====
section
/-! SUPPORT. What the shared operations mean for the frames of Safety.lean: physical registers, bytes of memory, trap
entry. -/

namespace Sys2Proof.Machine

/-! ## Registers -/

/-- A register reads as the physical register it names, where it names one (10_state.md R24). -/
theorem physRead_physOf {r : Reg} {s : State} {q : Phys} (h : physOf r s.flag.p = some q) :
    physRead q s = readReg r s := by
  cases r with
  | sp => cases hp : s.flag.p <;> simp [physOf, hp] at h <;> subst h <;> simp [physRead, readReg, hp]
  | flag => simp [physOf] at h
  | _ => simp only [physOf, Option.some.injEq] at h; subst h; rfl

/-- A register write reaches exactly the physical register its name stands for (10_state.md R25). -/
theorem physRead_writeReg (q : Phys) (r : Reg) (v : Word) (s : State) :
    physRead q (writeReg r v s) = if physOf r s.flag.p = some q then v else physRead q s := by
  cases r with
  | g n =>
    cases q with
    | g m =>
      by_cases h : n = m
      · subst h; simp [physRead, writeReg, physOf]
      · have h' : n.val ≠ m.val := fun e => h (Fin.ext e)
        simp [physRead, writeReg, physOf, h, h', State.setG]
    | _ => simp [physRead, writeReg, physOf]
  | sp => cases hp : s.flag.p <;> cases q <;> simp [physRead, writeReg, physOf, hp]
  | _ => cases q <;> simp [physRead, writeReg, physOf]

@[simp] theorem physRead_setPc (q : Phys) (v : Word) (s : State) : physRead q (s.setPc v) = physRead q s := by
  cases q <;> rfl

@[simp] theorem physRead_setFlag (q : Phys) (f : Flags) (s : State) : physRead q (s.setFlag f) = physRead q s := by
  cases q <;> rfl

@[simp] theorem physRead_setMem (q : Phys) (m : Memory) (s : State) : physRead q (s.setMem m) = physRead q s := by
  cases q <;> rfl

@[simp] theorem physRead_setMmu (q : Phys) (m : Mmu) (s : State) : physRead q (s.setMmu m) = physRead q s := by
  cases q <;> rfl

@[simp] theorem physRead_setIo (q : Phys) (d : Io) (s : State) : physRead q (s.setIo d) = physRead q s := by
  cases q <;> rfl

@[simp] theorem physRead_setHalted (q : Phys) (b : Bool) (s : State) : physRead q (s.setHalted b) = physRead q s := by
  cases q <;> rfl

/-- A write to a register that is not FLAG is read back through the same name. -/
theorem readReg_writeReg_same {r : Reg} (h : r ≠ .flag) (v : Word) (s : State) : readReg r (writeReg r v s) = v := by
  cases r with
  | g n => simp [readReg, writeReg, State.setG]
  | flag => exact absurd rfl h
  | sp => cases hp : s.flag.p <;> simp [readReg, writeReg, hp]
  | _ => simp [readReg, writeReg]

/-! ## Flags -/

theorem getLsbD_bitAt (b : Bool) {k : Nat} (hk : k < 16) (j : Nat) :
    (bitAt b k).getLsbD j = (b && decide (j = k)) := by
  unfold bitAt
  cases b with
  | false => simp
  | true =>
    have h : (1 <<< k : Word) = BitVec.twoPow 16 k := rfl
    by_cases e : j = k
    · subst e; simp [h, hk]
    · simp [h, BitVec.getLsbD_twoPow, e, Ne.symm e]

/-- FLAG's bits by position (10_state.md R29). -/
theorem Flags.getLsbD_toWord (f : Flags) (j : Nat) :
    f.toWord.getLsbD j = (f.e && decide (j = 7) || f.p && decide (j = 6) || f.i && decide (j = 5) ||
      f.v && decide (j = 3) || f.c && decide (j = 2) || f.s && decide (j = 1) || f.z && decide (j = 0)) := by
  simp [Flags.toWord, getLsbD_bitAt]
theorem Flags.ofWord_toWord (f : Flags) : Flags.ofWord f.toWord = f := by
  obtain ⟨e, p, i, v, c, s, z⟩ := f
  revert e p i v c s z; decide

/-- In privileged mode the word of FLAG, written back, gives FLAG again (10_state.md R33). -/
theorem Flags.write_toWord {f : Flags} (h : f.p = true) (g : Flags) : f.write g.toWord = g := by
  simp [Flags.write, h, Flags.ofWord_toWord]

/-- A write to FLAG in user mode leaves E, P and I (10_state.md R33). -/
theorem Flags.write_user {f : Flags} (h : f.p = false) (v : Word) :
    (f.write v).e = f.e ∧ (f.write v).p = f.p ∧ (f.write v).i = f.i := by
  simp [Flags.write, h]

/-! ## Memory -/

theorem loadBytes_word (s : State) (a : Word) : loadBytes .word a.toNat s = wordAt s a := rfl

theorem wordAt_congr {s t : State} (hm : t.mem = s.mem) (hu : t.mmu = s.mmu) (a : Word) : wordAt t a = wordAt s a :=
  loadBytes_congr hm hu .word a.toNat

theorem toNat_odd {a : Word} (h : isOdd a = false) : a.toNat % 2 = 0 := by
  rw [isOdd_eq] at h
  have : ¬ a.toNat % 2 = 1 := by simpa using h
  omega

/-- The bytes after a word is stored where no ROM is. -/
theorem byteAt_storeWord {pa : Nat} {v : Word} {s : State} (hr : romTouched .word pa s = false) (x : Nat) :
    byteAt (s.setMem (storeBytes .word pa v s.mem)) x =
      if x = pa + 1 then loByte v else if x = pa then hiByte v else byteAt s x := by
  have hrom : romAt (s.setMem (storeBytes .word pa v s.mem)) x = romAt s x := rfl
  obtain ⟨h0, h1⟩ := (romTouched_eq_false_iff _ _ _).mp hr
  simp only [byteAt, hrom, State.setMem_mem, read_storeBytes]
  by_cases hx : x = pa + 1
  · subst hx; simp [h1]
  · by_cases hx' : x = pa
    · subst hx'; simp [h0]
    · simp [hx, hx']

/-- The bytes after a byte is stored where no ROM is. -/
theorem byteAt_storeByte {pa : Nat} {v : Word} {s : State} (hr : romTouched .byte pa s = false) (x : Nat) :
    byteAt (s.setMem (storeBytes .byte pa v s.mem)) x = if x = pa then loByte v else byteAt s x := by
  have hrom : romAt (s.setMem (storeBytes .byte pa v s.mem)) x = romAt s x := rfl
  simp only [byteAt, hrom, State.setMem_mem, read_storeBytes]
  by_cases hx : x = pa
  · subst hx; simp [((romTouched_eq_false_iff _ _ _).mp hr).1]
  · simp [hx]

/-- A word stored where no ROM is reads back (20_memory.md R51, R52). -/
theorem wordAt_store {a v : Word} {s t : State} (hr : romTouched .word a.toNat s = false)
    (hm : t.mem = storeBytes .word a.toNat v s.mem) (hu : t.mmu = s.mmu) : wordAt t a = v := by
  have hc := wordAt_congr (s := s.setMem (storeBytes .word a.toNat v s.mem)) hm hu a
  rw [hc]
  simp only [wordAt, byteAt_storeWord hr]
  simp [joinBytes_hi_lo]

/-! ## Reading operands -/

theorem eaReady_iff (x : MemEa) (s : State) :
    eaReady x s = true ↔ (memWidth x = .word → isOdd (memAddr x s) = false) ∧ mmuOn s = false := by
  unfold eaReady
  cases mmuOn s <;> cases memWidth x <;> cases isOdd (memAddr x s) <;> simp

/-- The operand's value is the one `operandWord` gives exactly when the operand is ready. -/
theorem operandValue_ok {x : Operand} {s : State} (h : operandReady x s = true) :
    operandValue x s = .ok (operandWord x s) := by
  rw [operandValue_ok_iff]
  cases x with
  | mem ea =>
    obtain ⟨ho, hm⟩ := (eaReady_iff _ _).mp h
    refine ⟨ho, hm, ?_⟩
    simp only [operandWord]
    cases memWidth ea <;> rfl
  | _ => rfl

/-! ## Trap entry -/

theorem vectorAddr_even (k : Nat) : isOdd (vectorAddr k) = false := by
  have h : (vectorAddr k).toNat = (65504 + 2 * k % 65536) % 65536 := by simp [vectorAddr, BitVec.toNat_add]
  rw [isOdd_eq, h]
  exact decide_eq_false (by omega)

theorem trapReady_iff (s : State) :
    trapReady s = true ↔ mmuOn s = false ∧ isOdd s.ssp = false ∧ romTouched .word (s.ssp - 2).toNat s = false ∧
      romTouched .word (s.ssp - 4).toNat s = false := by
  simp [trapReady, and_assoc]

theorem sub_two_two (a : Word) : a - 2 - 2 = a - 4 := by
  rw [BitVec.sub_sub]; rfl

/-- A change of the MMU's registers that leaves its modes and the ROM alone, as every exception's is. -/
def MmuSettled (m n : Mmu) : Prop := n.iplDetached = m.iplDetached ∧ n.relocation = m.relocation ∧ n.paging = m.paging

/-- What trap entry leaves (60_exceptions.md R215), started in a state whose MMU registers recorded the exception. -/
theorem trapEntered_of_ok {k : Nat} {spc : Word} {s t : State} {m : Mmu} (hm : MmuSettled s.mmu m)
    (h : trapEntry (vectorAddr k) spc (s.setMmu m) = .ok t) : TrapEntered k spc m s t := by
  have hrom : ∀ a, romAt (s.setMmu m) a = romAt s a := fun a => by simp [romAt, hm.1]
  have htouch : ∀ a, romTouched .word a (s.setMmu m) = romTouched .word a s := fun a => by simp [romTouched, hrom]
  obtain ⟨o, mo, r1, r2, -, rfl⟩ := (trapEntry_ok_iff _ _ _ _).mp h
  simp only [State.setMmu_ssp, sub_two_two, htouch] at r1 r2 o
  have e1 := toNat_odd ((isOdd_sub_two s.ssp).trans o)
  have o4 : isOdd (s.ssp - 4) = false := by rw [← sub_two_two, isOdd_sub_two, isOdd_sub_two]; exact o
  have e2 := toNat_odd o4
  have hne : (s.ssp - 2).toNat ≠ (s.ssp - 4).toNat := by
    intro e
    have := BitVec.eq_of_toNat_eq e
    bv_omega
  have hb : ∀ x, Memory.read (trapFrame spc (s.setMmu m)) x =
      if x = (s.ssp - 4).toNat + 1 then loByte s.flag.toWord else if x = (s.ssp - 4).toNat then hiByte s.flag.toWord
      else if x = (s.ssp - 2).toNat + 1 then loByte spc else if x = (s.ssp - 2).toNat then hiByte spc
      else Memory.read s.mem x := by
    intro x
    simp only [trapFrame, sub_two_two, State.setMmu_ssp, State.setMmu_flag, State.setMmu_mem, read_storeBytes]
  have hat : ∀ x, byteAt ((((((s.setMmu m).setFlag s.flag.entered).setSsp (s.ssp - 2 - 2)).setMem
      (trapFrame spc (s.setMmu m))).setPc (loadBytes .word (vectorAddr k).toNat
        ((s.setMmu m).setMem (trapFrame spc (s.setMmu m)))))) x =
      if romAt s x then Config.iplRom x else Memory.read (trapFrame spc (s.setMmu m)) x := by
    intro x
    rw [← hrom]; rfl
  obtain ⟨r1, hr1⟩ := (romTouched_eq_false_iff _ _ _).mp r1
  obtain ⟨r2, hr2⟩ := (romTouched_eq_false_iff _ _ _).mp r2
  have a1 : (s.ssp - 2).toNat + 1 ≠ (s.ssp - 4).toNat := by omega
  have a2 : (s.ssp - 2).toNat ≠ (s.ssp - 4).toNat + 1 := by omega
  refine ⟨rfl, sub_two_two _, ?_, ?_, rfl, fun q hq => ?_, fun a h1 h2 h3 h4 => ?_, rfl, rfl, rfl, rfl⟩
  · simp only [wordAt, State.setMmu_flag, State.setMmu_ssp, hat, hb]
    generalize (s.ssp - 2).toNat = A at *
    generalize (s.ssp - 4).toNat = B at *
    simp [r1, hr1, hne, a1, a2, joinBytes_hi_lo]
  · simp only [wordAt, State.setMmu_flag, State.setMmu_ssp, hat, hb]
    generalize (s.ssp - 2).toNat = A at *
    generalize (s.ssp - 4).toNat = B at *
    simp [r2, hr2, joinBytes_hi_lo]
  · cases q <;> simp_all [physRead]
  · simp only [State.setMmu_flag, State.setMmu_ssp, hat, hb]
    generalize (s.ssp - 2).toNat = A at *
    generalize (s.ssp - 4).toNat = B at *
    simp [h1, h2, h3, h4, byteAt]

/-- Trap entry completes where `trapReady` says so. -/
theorem trapEntry_completes {s : State} (h : trapReady s = true) (k : Nat) (spc : Word) {m : Mmu}
    (hm : MmuSettled s.mmu m) : ∃ t, trapEntry (vectorAddr k) spc (s.setMmu m) = .ok t := by
  obtain ⟨mo, o, r1, r2⟩ := (trapReady_iff _).mp h
  refine ⟨_, (trapEntry_ok_iff _ _ _ _).mpr ⟨o, ?_, ?_, ?_, vectorAddr_even k, rfl⟩⟩
  · simpa [mmuOn, hm.2.1, hm.2.2] using mo
  · simpa [romTouched, romAt, hm.1] using r1
  · rw [State.setMmu_ssp, sub_two_two]
    simpa [romTouched, romAt, hm.1] using r2

theorem recordCause_eq (k : Exc) (s : State) :
    recordCause k s = s.setMmu (recordCause k s).mmu ∧ MmuSettled s.mmu (recordCause k s).mmu := by
  cases k <;> exact ⟨rfl, rfl, rfl, rfl⟩

theorem savedPc_or (k : Exc) (next : Word) (s : State) : savedPc k next s = s.pc ∨ savedPc k next s = next := by
  cases k with
  | supervisorCall => exact .inr rfl
  | _ => simp only [savedPc]; split <;> simp

theorem savedPc_recordCause (k : Exc) (next : Word) (s : State) :
    savedPc k next (recordCause k s) = savedPc k next s := by
  cases k <;> rfl

/-- What taking an exception leaves (60_exceptions.md R215, R217). -/
theorem takeException_entered {k : Exc} {next : Word} {s t : State} (h : takeException k next s = .next t) :
    TrapEntered (excNumber k) (savedPc k next s) (recordCause k s).mmu s t := by
  rw [takeException_next_iff, (recordCause_eq k s).1] at h
  exact trapEntered_of_ok (recordCause_eq k s).2 h

/-- Taking an exception completes where `trapReady` says so. -/
theorem takeException_completes {s : State} (h : trapReady s = true) (k : Exc) (next : Word) :
    ∃ t, takeException k next s = .next t := by
  simp only [takeException_next_iff]
  rw [(recordCause_eq k s).1]
  exact trapEntry_completes h _ _ (recordCause_eq k s).2

theorem takeException_traps {s : State} (h : trapReady s = true) (k : Exc) (next : Word) :
    Traps (takeException k next s) (excNumber k) s.pc next (recordCause k s).mmu s := by
  obtain ⟨t, ht⟩ := takeException_completes h k next
  exact ⟨t, _, ht, savedPc_or k next s, takeException_entered ht⟩

/-- Taking an interrupt changes nothing before trap entry (60_exceptions.md R211). -/
theorem takeInterrupt_next_iff (k : Fin 10) (s t : State) :
    takeInterrupt k s = .next t ↔ trapEntry (vectorAddr k.val) s.pc (s.setMmu s.mmu) = .ok t :=
  enter_next_iff _ _ _ _

end Sys2Proof.Machine
end

