-- ==== Sys2Proof/Laws/PerInstr.lean ====
section
/-! SUPPORT. Statements about every instruction, one lemma for each constructor. -/

namespace Sys2Proof.Laws.EncodedLength

/-- The encoder writes as many words as the length rule 30_encoding.md R86 reads off the first of them. -/
def Statement (i : Instr) : Prop := (encode i).length = wordCount ((encode i).headD 0)

theorem no : Statement (.no) :=
  show 1 = wordCount (firstWord 0x00 _ _) by rw [wordCount_firstWord]; rfl

theorem ldDirect (rd : Reg) (dsp : Word) : Statement (.ldDirect rd dsp) :=
  show 2 = wordCount (firstWord 0x08 _ _) by rw [wordCount_firstWord]; rfl

theorem ldIndexed (rd : Reg) (dsp : Word) (rx : Reg) : Statement (.ldIndexed rd dsp rx) :=
  show 2 = wordCount (firstWord 0x09 _ _) by rw [wordCount_firstWord]; rfl

theorem ldImm (rd : Reg) (imm : Word) : Statement (.ldImm rd imm) :=
  show 2 = wordCount (firstWord 0x0a _ _) by rw [wordCount_firstWord]; rfl

theorem ldFpRel (rd : Reg) (dsp4 : Int) : Statement (.ldFpRel rd dsp4) :=
  show 1 = wordCount (firstWord 0x0b _ _) by rw [wordCount_firstWord]; rfl

theorem ldReg (rd : Reg) (rs : Reg) : Statement (.ldReg rd rs) :=
  show 1 = wordCount (firstWord 0x0c _ _) by rw [wordCount_firstWord]; rfl

theorem ldImm4 (rd : Reg) (imm4 : Int) : Statement (.ldImm4 rd imm4) :=
  show 1 = wordCount (firstWord 0x0d _ _) by rw [wordCount_firstWord]; rfl

theorem ldIndir (rd : Reg) (rx : Reg) : Statement (.ldIndir rd rx) :=
  show 1 = wordCount (firstWord 0x0e _ _) by rw [wordCount_firstWord]; rfl

theorem ldByteIndir (rd : Reg) (rx : Reg) : Statement (.ldByteIndir rd rx) :=
  show 1 = wordCount (firstWord 0x0f _ _) by rw [wordCount_firstWord]; rfl

theorem stDirect (rd : Reg) (dsp : Word) : Statement (.stDirect rd dsp) :=
  show 2 = wordCount (firstWord 0x10 _ _) by rw [wordCount_firstWord]; rfl

theorem stIndexed (rd : Reg) (dsp : Word) (rx : Reg) : Statement (.stIndexed rd dsp rx) :=
  show 2 = wordCount (firstWord 0x11 _ _) by rw [wordCount_firstWord]; rfl

theorem stFpRel (rd : Reg) (dsp4 : Int) : Statement (.stFpRel rd dsp4) :=
  show 1 = wordCount (firstWord 0x13 _ _) by rw [wordCount_firstWord]; rfl

theorem stIndir (rd : Reg) (rx : Reg) : Statement (.stIndir rd rx) :=
  show 1 = wordCount (firstWord 0x16 _ _) by rw [wordCount_firstWord]; rfl

theorem stByteIndir (rd : Reg) (rx : Reg) : Statement (.stByteIndir rd rx) :=
  show 1 = wordCount (firstWord 0x17 _ _) by rw [wordCount_firstWord]; rfl

theorem addDirect (rd : Reg) (dsp : Word) : Statement (.addDirect rd dsp) :=
  show 2 = wordCount (firstWord 0x18 _ _) by rw [wordCount_firstWord]; rfl

theorem addIndexed (rd : Reg) (dsp : Word) (rx : Reg) : Statement (.addIndexed rd dsp rx) :=
  show 2 = wordCount (firstWord 0x19 _ _) by rw [wordCount_firstWord]; rfl

theorem addImm (rd : Reg) (imm : Word) : Statement (.addImm rd imm) :=
  show 2 = wordCount (firstWord 0x1a _ _) by rw [wordCount_firstWord]; rfl

theorem addFpRel (rd : Reg) (dsp4 : Int) : Statement (.addFpRel rd dsp4) :=
  show 1 = wordCount (firstWord 0x1b _ _) by rw [wordCount_firstWord]; rfl

theorem addReg (rd : Reg) (rs : Reg) : Statement (.addReg rd rs) :=
  show 1 = wordCount (firstWord 0x1c _ _) by rw [wordCount_firstWord]; rfl

theorem addImm4 (rd : Reg) (imm4 : Int) : Statement (.addImm4 rd imm4) :=
  show 1 = wordCount (firstWord 0x1d _ _) by rw [wordCount_firstWord]; rfl

theorem addIndir (rd : Reg) (rx : Reg) : Statement (.addIndir rd rx) :=
  show 1 = wordCount (firstWord 0x1e _ _) by rw [wordCount_firstWord]; rfl

theorem addByteIndir (rd : Reg) (rx : Reg) : Statement (.addByteIndir rd rx) :=
  show 1 = wordCount (firstWord 0x1f _ _) by rw [wordCount_firstWord]; rfl

theorem subDirect (rd : Reg) (dsp : Word) : Statement (.subDirect rd dsp) :=
  show 2 = wordCount (firstWord 0x20 _ _) by rw [wordCount_firstWord]; rfl

theorem subIndexed (rd : Reg) (dsp : Word) (rx : Reg) : Statement (.subIndexed rd dsp rx) :=
  show 2 = wordCount (firstWord 0x21 _ _) by rw [wordCount_firstWord]; rfl

theorem subImm (rd : Reg) (imm : Word) : Statement (.subImm rd imm) :=
  show 2 = wordCount (firstWord 0x22 _ _) by rw [wordCount_firstWord]; rfl

theorem subFpRel (rd : Reg) (dsp4 : Int) : Statement (.subFpRel rd dsp4) :=
  show 1 = wordCount (firstWord 0x23 _ _) by rw [wordCount_firstWord]; rfl

theorem subReg (rd : Reg) (rs : Reg) : Statement (.subReg rd rs) :=
  show 1 = wordCount (firstWord 0x24 _ _) by rw [wordCount_firstWord]; rfl

theorem subImm4 (rd : Reg) (imm4 : Int) : Statement (.subImm4 rd imm4) :=
  show 1 = wordCount (firstWord 0x25 _ _) by rw [wordCount_firstWord]; rfl

theorem subIndir (rd : Reg) (rx : Reg) : Statement (.subIndir rd rx) :=
  show 1 = wordCount (firstWord 0x26 _ _) by rw [wordCount_firstWord]; rfl

theorem subByteIndir (rd : Reg) (rx : Reg) : Statement (.subByteIndir rd rx) :=
  show 1 = wordCount (firstWord 0x27 _ _) by rw [wordCount_firstWord]; rfl

theorem cmpDirect (rd : Reg) (dsp : Word) : Statement (.cmpDirect rd dsp) :=
  show 2 = wordCount (firstWord 0x28 _ _) by rw [wordCount_firstWord]; rfl

theorem cmpIndexed (rd : Reg) (dsp : Word) (rx : Reg) : Statement (.cmpIndexed rd dsp rx) :=
  show 2 = wordCount (firstWord 0x29 _ _) by rw [wordCount_firstWord]; rfl

theorem cmpImm (rd : Reg) (imm : Word) : Statement (.cmpImm rd imm) :=
  show 2 = wordCount (firstWord 0x2a _ _) by rw [wordCount_firstWord]; rfl

theorem cmpFpRel (rd : Reg) (dsp4 : Int) : Statement (.cmpFpRel rd dsp4) :=
  show 1 = wordCount (firstWord 0x2b _ _) by rw [wordCount_firstWord]; rfl

theorem cmpReg (rd : Reg) (rs : Reg) : Statement (.cmpReg rd rs) :=
  show 1 = wordCount (firstWord 0x2c _ _) by rw [wordCount_firstWord]; rfl

theorem cmpImm4 (rd : Reg) (imm4 : Int) : Statement (.cmpImm4 rd imm4) :=
  show 1 = wordCount (firstWord 0x2d _ _) by rw [wordCount_firstWord]; rfl

theorem cmpIndir (rd : Reg) (rx : Reg) : Statement (.cmpIndir rd rx) :=
  show 1 = wordCount (firstWord 0x2e _ _) by rw [wordCount_firstWord]; rfl

theorem cmpByteIndir (rd : Reg) (rx : Reg) : Statement (.cmpByteIndir rd rx) :=
  show 1 = wordCount (firstWord 0x2f _ _) by rw [wordCount_firstWord]; rfl

theorem andDirect (rd : Reg) (dsp : Word) : Statement (.andDirect rd dsp) :=
  show 2 = wordCount (firstWord 0x30 _ _) by rw [wordCount_firstWord]; rfl

theorem andIndexed (rd : Reg) (dsp : Word) (rx : Reg) : Statement (.andIndexed rd dsp rx) :=
  show 2 = wordCount (firstWord 0x31 _ _) by rw [wordCount_firstWord]; rfl

theorem andImm (rd : Reg) (imm : Word) : Statement (.andImm rd imm) :=
  show 2 = wordCount (firstWord 0x32 _ _) by rw [wordCount_firstWord]; rfl

theorem andFpRel (rd : Reg) (dsp4 : Int) : Statement (.andFpRel rd dsp4) :=
  show 1 = wordCount (firstWord 0x33 _ _) by rw [wordCount_firstWord]; rfl

theorem andReg (rd : Reg) (rs : Reg) : Statement (.andReg rd rs) :=
  show 1 = wordCount (firstWord 0x34 _ _) by rw [wordCount_firstWord]; rfl

theorem andImm4 (rd : Reg) (imm4 : Int) : Statement (.andImm4 rd imm4) :=
  show 1 = wordCount (firstWord 0x35 _ _) by rw [wordCount_firstWord]; rfl

theorem andIndir (rd : Reg) (rx : Reg) : Statement (.andIndir rd rx) :=
  show 1 = wordCount (firstWord 0x36 _ _) by rw [wordCount_firstWord]; rfl

theorem andByteIndir (rd : Reg) (rx : Reg) : Statement (.andByteIndir rd rx) :=
  show 1 = wordCount (firstWord 0x37 _ _) by rw [wordCount_firstWord]; rfl

theorem orDirect (rd : Reg) (dsp : Word) : Statement (.orDirect rd dsp) :=
  show 2 = wordCount (firstWord 0x38 _ _) by rw [wordCount_firstWord]; rfl

theorem orIndexed (rd : Reg) (dsp : Word) (rx : Reg) : Statement (.orIndexed rd dsp rx) :=
  show 2 = wordCount (firstWord 0x39 _ _) by rw [wordCount_firstWord]; rfl

theorem orImm (rd : Reg) (imm : Word) : Statement (.orImm rd imm) :=
  show 2 = wordCount (firstWord 0x3a _ _) by rw [wordCount_firstWord]; rfl

theorem orFpRel (rd : Reg) (dsp4 : Int) : Statement (.orFpRel rd dsp4) :=
  show 1 = wordCount (firstWord 0x3b _ _) by rw [wordCount_firstWord]; rfl

theorem orReg (rd : Reg) (rs : Reg) : Statement (.orReg rd rs) :=
  show 1 = wordCount (firstWord 0x3c _ _) by rw [wordCount_firstWord]; rfl

theorem orImm4 (rd : Reg) (imm4 : Int) : Statement (.orImm4 rd imm4) :=
  show 1 = wordCount (firstWord 0x3d _ _) by rw [wordCount_firstWord]; rfl

theorem orIndir (rd : Reg) (rx : Reg) : Statement (.orIndir rd rx) :=
  show 1 = wordCount (firstWord 0x3e _ _) by rw [wordCount_firstWord]; rfl

theorem orByteIndir (rd : Reg) (rx : Reg) : Statement (.orByteIndir rd rx) :=
  show 1 = wordCount (firstWord 0x3f _ _) by rw [wordCount_firstWord]; rfl

theorem xorDirect (rd : Reg) (dsp : Word) : Statement (.xorDirect rd dsp) :=
  show 2 = wordCount (firstWord 0x40 _ _) by rw [wordCount_firstWord]; rfl

theorem xorIndexed (rd : Reg) (dsp : Word) (rx : Reg) : Statement (.xorIndexed rd dsp rx) :=
  show 2 = wordCount (firstWord 0x41 _ _) by rw [wordCount_firstWord]; rfl

theorem xorImm (rd : Reg) (imm : Word) : Statement (.xorImm rd imm) :=
  show 2 = wordCount (firstWord 0x42 _ _) by rw [wordCount_firstWord]; rfl

theorem xorFpRel (rd : Reg) (dsp4 : Int) : Statement (.xorFpRel rd dsp4) :=
  show 1 = wordCount (firstWord 0x43 _ _) by rw [wordCount_firstWord]; rfl

theorem xorReg (rd : Reg) (rs : Reg) : Statement (.xorReg rd rs) :=
  show 1 = wordCount (firstWord 0x44 _ _) by rw [wordCount_firstWord]; rfl

theorem xorImm4 (rd : Reg) (imm4 : Int) : Statement (.xorImm4 rd imm4) :=
  show 1 = wordCount (firstWord 0x45 _ _) by rw [wordCount_firstWord]; rfl

theorem xorIndir (rd : Reg) (rx : Reg) : Statement (.xorIndir rd rx) :=
  show 1 = wordCount (firstWord 0x46 _ _) by rw [wordCount_firstWord]; rfl

theorem xorByteIndir (rd : Reg) (rx : Reg) : Statement (.xorByteIndir rd rx) :=
  show 1 = wordCount (firstWord 0x47 _ _) by rw [wordCount_firstWord]; rfl

theorem addsDirect (rd : Reg) (dsp : Word) : Statement (.addsDirect rd dsp) :=
  show 2 = wordCount (firstWord 0x48 _ _) by rw [wordCount_firstWord]; rfl

theorem addsIndexed (rd : Reg) (dsp : Word) (rx : Reg) : Statement (.addsIndexed rd dsp rx) :=
  show 2 = wordCount (firstWord 0x49 _ _) by rw [wordCount_firstWord]; rfl

theorem addsImm (rd : Reg) (imm : Word) : Statement (.addsImm rd imm) :=
  show 2 = wordCount (firstWord 0x4a _ _) by rw [wordCount_firstWord]; rfl

theorem addsFpRel (rd : Reg) (dsp4 : Int) : Statement (.addsFpRel rd dsp4) :=
  show 1 = wordCount (firstWord 0x4b _ _) by rw [wordCount_firstWord]; rfl

theorem addsReg (rd : Reg) (rs : Reg) : Statement (.addsReg rd rs) :=
  show 1 = wordCount (firstWord 0x4c _ _) by rw [wordCount_firstWord]; rfl

theorem addsImm4 (rd : Reg) (imm4 : Int) : Statement (.addsImm4 rd imm4) :=
  show 1 = wordCount (firstWord 0x4d _ _) by rw [wordCount_firstWord]; rfl

theorem addsIndir (rd : Reg) (rx : Reg) : Statement (.addsIndir rd rx) :=
  show 1 = wordCount (firstWord 0x4e _ _) by rw [wordCount_firstWord]; rfl

theorem addsByteIndir (rd : Reg) (rx : Reg) : Statement (.addsByteIndir rd rx) :=
  show 1 = wordCount (firstWord 0x4f _ _) by rw [wordCount_firstWord]; rfl

theorem mulDirect (rd : Reg) (dsp : Word) : Statement (.mulDirect rd dsp) :=
  show 2 = wordCount (firstWord 0x50 _ _) by rw [wordCount_firstWord]; rfl

theorem mulIndexed (rd : Reg) (dsp : Word) (rx : Reg) : Statement (.mulIndexed rd dsp rx) :=
  show 2 = wordCount (firstWord 0x51 _ _) by rw [wordCount_firstWord]; rfl

theorem mulImm (rd : Reg) (imm : Word) : Statement (.mulImm rd imm) :=
  show 2 = wordCount (firstWord 0x52 _ _) by rw [wordCount_firstWord]; rfl

theorem mulFpRel (rd : Reg) (dsp4 : Int) : Statement (.mulFpRel rd dsp4) :=
  show 1 = wordCount (firstWord 0x53 _ _) by rw [wordCount_firstWord]; rfl

theorem mulReg (rd : Reg) (rs : Reg) : Statement (.mulReg rd rs) :=
  show 1 = wordCount (firstWord 0x54 _ _) by rw [wordCount_firstWord]; rfl

theorem mulImm4 (rd : Reg) (imm4 : Int) : Statement (.mulImm4 rd imm4) :=
  show 1 = wordCount (firstWord 0x55 _ _) by rw [wordCount_firstWord]; rfl

theorem mulIndir (rd : Reg) (rx : Reg) : Statement (.mulIndir rd rx) :=
  show 1 = wordCount (firstWord 0x56 _ _) by rw [wordCount_firstWord]; rfl

theorem mulByteIndir (rd : Reg) (rx : Reg) : Statement (.mulByteIndir rd rx) :=
  show 1 = wordCount (firstWord 0x57 _ _) by rw [wordCount_firstWord]; rfl

theorem divDirect (rd : Reg) (dsp : Word) : Statement (.divDirect rd dsp) :=
  show 2 = wordCount (firstWord 0x58 _ _) by rw [wordCount_firstWord]; rfl

theorem divIndexed (rd : Reg) (dsp : Word) (rx : Reg) : Statement (.divIndexed rd dsp rx) :=
  show 2 = wordCount (firstWord 0x59 _ _) by rw [wordCount_firstWord]; rfl

theorem divImm (rd : Reg) (imm : Word) : Statement (.divImm rd imm) :=
  show 2 = wordCount (firstWord 0x5a _ _) by rw [wordCount_firstWord]; rfl

theorem divFpRel (rd : Reg) (dsp4 : Int) : Statement (.divFpRel rd dsp4) :=
  show 1 = wordCount (firstWord 0x5b _ _) by rw [wordCount_firstWord]; rfl

theorem divReg (rd : Reg) (rs : Reg) : Statement (.divReg rd rs) :=
  show 1 = wordCount (firstWord 0x5c _ _) by rw [wordCount_firstWord]; rfl

theorem divImm4 (rd : Reg) (imm4 : Int) : Statement (.divImm4 rd imm4) :=
  show 1 = wordCount (firstWord 0x5d _ _) by rw [wordCount_firstWord]; rfl

theorem divIndir (rd : Reg) (rx : Reg) : Statement (.divIndir rd rx) :=
  show 1 = wordCount (firstWord 0x5e _ _) by rw [wordCount_firstWord]; rfl

theorem divByteIndir (rd : Reg) (rx : Reg) : Statement (.divByteIndir rd rx) :=
  show 1 = wordCount (firstWord 0x5f _ _) by rw [wordCount_firstWord]; rfl

theorem modDirect (rd : Reg) (dsp : Word) : Statement (.modDirect rd dsp) :=
  show 2 = wordCount (firstWord 0x60 _ _) by rw [wordCount_firstWord]; rfl

theorem modIndexed (rd : Reg) (dsp : Word) (rx : Reg) : Statement (.modIndexed rd dsp rx) :=
  show 2 = wordCount (firstWord 0x61 _ _) by rw [wordCount_firstWord]; rfl

theorem modImm (rd : Reg) (imm : Word) : Statement (.modImm rd imm) :=
  show 2 = wordCount (firstWord 0x62 _ _) by rw [wordCount_firstWord]; rfl

theorem modFpRel (rd : Reg) (dsp4 : Int) : Statement (.modFpRel rd dsp4) :=
  show 1 = wordCount (firstWord 0x63 _ _) by rw [wordCount_firstWord]; rfl

theorem modReg (rd : Reg) (rs : Reg) : Statement (.modReg rd rs) :=
  show 1 = wordCount (firstWord 0x64 _ _) by rw [wordCount_firstWord]; rfl

theorem modImm4 (rd : Reg) (imm4 : Int) : Statement (.modImm4 rd imm4) :=
  show 1 = wordCount (firstWord 0x65 _ _) by rw [wordCount_firstWord]; rfl

theorem modIndir (rd : Reg) (rx : Reg) : Statement (.modIndir rd rx) :=
  show 1 = wordCount (firstWord 0x66 _ _) by rw [wordCount_firstWord]; rfl

theorem modByteIndir (rd : Reg) (rx : Reg) : Statement (.modByteIndir rd rx) :=
  show 1 = wordCount (firstWord 0x67 _ _) by rw [wordCount_firstWord]; rfl

theorem shlaDirect (rd : Reg) (dsp : Word) : Statement (.shlaDirect rd dsp) :=
  show 2 = wordCount (firstWord 0x80 _ _) by rw [wordCount_firstWord]; rfl

theorem shlaIndexed (rd : Reg) (dsp : Word) (rx : Reg) : Statement (.shlaIndexed rd dsp rx) :=
  show 2 = wordCount (firstWord 0x81 _ _) by rw [wordCount_firstWord]; rfl

theorem shlaImm (rd : Reg) (imm : Word) : Statement (.shlaImm rd imm) :=
  show 2 = wordCount (firstWord 0x82 _ _) by rw [wordCount_firstWord]; rfl

theorem shlaFpRel (rd : Reg) (dsp4 : Int) : Statement (.shlaFpRel rd dsp4) :=
  show 1 = wordCount (firstWord 0x83 _ _) by rw [wordCount_firstWord]; rfl

theorem shlaReg (rd : Reg) (rs : Reg) : Statement (.shlaReg rd rs) :=
  show 1 = wordCount (firstWord 0x84 _ _) by rw [wordCount_firstWord]; rfl

theorem shlaImm4 (rd : Reg) (imm4 : Int) : Statement (.shlaImm4 rd imm4) :=
  show 1 = wordCount (firstWord 0x85 _ _) by rw [wordCount_firstWord]; rfl

theorem shlaIndir (rd : Reg) (rx : Reg) : Statement (.shlaIndir rd rx) :=
  show 1 = wordCount (firstWord 0x86 _ _) by rw [wordCount_firstWord]; rfl

theorem shlaByteIndir (rd : Reg) (rx : Reg) : Statement (.shlaByteIndir rd rx) :=
  show 1 = wordCount (firstWord 0x87 _ _) by rw [wordCount_firstWord]; rfl

theorem shllDirect (rd : Reg) (dsp : Word) : Statement (.shllDirect rd dsp) :=
  show 2 = wordCount (firstWord 0x88 _ _) by rw [wordCount_firstWord]; rfl

theorem shllIndexed (rd : Reg) (dsp : Word) (rx : Reg) : Statement (.shllIndexed rd dsp rx) :=
  show 2 = wordCount (firstWord 0x89 _ _) by rw [wordCount_firstWord]; rfl

theorem shllImm (rd : Reg) (imm : Word) : Statement (.shllImm rd imm) :=
  show 2 = wordCount (firstWord 0x8a _ _) by rw [wordCount_firstWord]; rfl

theorem shllFpRel (rd : Reg) (dsp4 : Int) : Statement (.shllFpRel rd dsp4) :=
  show 1 = wordCount (firstWord 0x8b _ _) by rw [wordCount_firstWord]; rfl

theorem shllReg (rd : Reg) (rs : Reg) : Statement (.shllReg rd rs) :=
  show 1 = wordCount (firstWord 0x8c _ _) by rw [wordCount_firstWord]; rfl

theorem shllImm4 (rd : Reg) (imm4 : Int) : Statement (.shllImm4 rd imm4) :=
  show 1 = wordCount (firstWord 0x8d _ _) by rw [wordCount_firstWord]; rfl

theorem shllIndir (rd : Reg) (rx : Reg) : Statement (.shllIndir rd rx) :=
  show 1 = wordCount (firstWord 0x8e _ _) by rw [wordCount_firstWord]; rfl

theorem shllByteIndir (rd : Reg) (rx : Reg) : Statement (.shllByteIndir rd rx) :=
  show 1 = wordCount (firstWord 0x8f _ _) by rw [wordCount_firstWord]; rfl

theorem shraDirect (rd : Reg) (dsp : Word) : Statement (.shraDirect rd dsp) :=
  show 2 = wordCount (firstWord 0x90 _ _) by rw [wordCount_firstWord]; rfl

theorem shraIndexed (rd : Reg) (dsp : Word) (rx : Reg) : Statement (.shraIndexed rd dsp rx) :=
  show 2 = wordCount (firstWord 0x91 _ _) by rw [wordCount_firstWord]; rfl

theorem shraImm (rd : Reg) (imm : Word) : Statement (.shraImm rd imm) :=
  show 2 = wordCount (firstWord 0x92 _ _) by rw [wordCount_firstWord]; rfl

theorem shraFpRel (rd : Reg) (dsp4 : Int) : Statement (.shraFpRel rd dsp4) :=
  show 1 = wordCount (firstWord 0x93 _ _) by rw [wordCount_firstWord]; rfl

theorem shraReg (rd : Reg) (rs : Reg) : Statement (.shraReg rd rs) :=
  show 1 = wordCount (firstWord 0x94 _ _) by rw [wordCount_firstWord]; rfl

theorem shraImm4 (rd : Reg) (imm4 : Int) : Statement (.shraImm4 rd imm4) :=
  show 1 = wordCount (firstWord 0x95 _ _) by rw [wordCount_firstWord]; rfl

theorem shraIndir (rd : Reg) (rx : Reg) : Statement (.shraIndir rd rx) :=
  show 1 = wordCount (firstWord 0x96 _ _) by rw [wordCount_firstWord]; rfl

theorem shraByteIndir (rd : Reg) (rx : Reg) : Statement (.shraByteIndir rd rx) :=
  show 1 = wordCount (firstWord 0x97 _ _) by rw [wordCount_firstWord]; rfl

theorem shrlDirect (rd : Reg) (dsp : Word) : Statement (.shrlDirect rd dsp) :=
  show 2 = wordCount (firstWord 0x98 _ _) by rw [wordCount_firstWord]; rfl

theorem shrlIndexed (rd : Reg) (dsp : Word) (rx : Reg) : Statement (.shrlIndexed rd dsp rx) :=
  show 2 = wordCount (firstWord 0x99 _ _) by rw [wordCount_firstWord]; rfl

theorem shrlImm (rd : Reg) (imm : Word) : Statement (.shrlImm rd imm) :=
  show 2 = wordCount (firstWord 0x9a _ _) by rw [wordCount_firstWord]; rfl

theorem shrlFpRel (rd : Reg) (dsp4 : Int) : Statement (.shrlFpRel rd dsp4) :=
  show 1 = wordCount (firstWord 0x9b _ _) by rw [wordCount_firstWord]; rfl

theorem shrlReg (rd : Reg) (rs : Reg) : Statement (.shrlReg rd rs) :=
  show 1 = wordCount (firstWord 0x9c _ _) by rw [wordCount_firstWord]; rfl

theorem shrlImm4 (rd : Reg) (imm4 : Int) : Statement (.shrlImm4 rd imm4) :=
  show 1 = wordCount (firstWord 0x9d _ _) by rw [wordCount_firstWord]; rfl

theorem shrlIndir (rd : Reg) (rx : Reg) : Statement (.shrlIndir rd rx) :=
  show 1 = wordCount (firstWord 0x9e _ _) by rw [wordCount_firstWord]; rfl

theorem shrlByteIndir (rd : Reg) (rx : Reg) : Statement (.shrlByteIndir rd rx) :=
  show 1 = wordCount (firstWord 0x9f _ _) by rw [wordCount_firstWord]; rfl

theorem jzDirect (dsp : Word) : Statement (.jzDirect dsp) :=
  show 2 = wordCount (firstWord 0xa0 _ _) by rw [wordCount_firstWord]; rfl

theorem jzIndexed (dsp : Word) (rx : Reg) : Statement (.jzIndexed dsp rx) :=
  show 2 = wordCount (firstWord 0xa1 _ _) by rw [wordCount_firstWord]; rfl

theorem jcDirect (dsp : Word) : Statement (.jcDirect dsp) :=
  show 2 = wordCount (firstWord 0xa0 _ _) by rw [wordCount_firstWord]; rfl

theorem jcIndexed (dsp : Word) (rx : Reg) : Statement (.jcIndexed dsp rx) :=
  show 2 = wordCount (firstWord 0xa1 _ _) by rw [wordCount_firstWord]; rfl

theorem jmDirect (dsp : Word) : Statement (.jmDirect dsp) :=
  show 2 = wordCount (firstWord 0xa0 _ _) by rw [wordCount_firstWord]; rfl

theorem jmIndexed (dsp : Word) (rx : Reg) : Statement (.jmIndexed dsp rx) :=
  show 2 = wordCount (firstWord 0xa1 _ _) by rw [wordCount_firstWord]; rfl

theorem joDirect (dsp : Word) : Statement (.joDirect dsp) :=
  show 2 = wordCount (firstWord 0xa0 _ _) by rw [wordCount_firstWord]; rfl

theorem joIndexed (dsp : Word) (rx : Reg) : Statement (.joIndexed dsp rx) :=
  show 2 = wordCount (firstWord 0xa1 _ _) by rw [wordCount_firstWord]; rfl

theorem jgtDirect (dsp : Word) : Statement (.jgtDirect dsp) :=
  show 2 = wordCount (firstWord 0xa0 _ _) by rw [wordCount_firstWord]; rfl

theorem jgtIndexed (dsp : Word) (rx : Reg) : Statement (.jgtIndexed dsp rx) :=
  show 2 = wordCount (firstWord 0xa1 _ _) by rw [wordCount_firstWord]; rfl

theorem jgeDirect (dsp : Word) : Statement (.jgeDirect dsp) :=
  show 2 = wordCount (firstWord 0xa0 _ _) by rw [wordCount_firstWord]; rfl

theorem jgeIndexed (dsp : Word) (rx : Reg) : Statement (.jgeIndexed dsp rx) :=
  show 2 = wordCount (firstWord 0xa1 _ _) by rw [wordCount_firstWord]; rfl

theorem jleDirect (dsp : Word) : Statement (.jleDirect dsp) :=
  show 2 = wordCount (firstWord 0xa0 _ _) by rw [wordCount_firstWord]; rfl

theorem jleIndexed (dsp : Word) (rx : Reg) : Statement (.jleIndexed dsp rx) :=
  show 2 = wordCount (firstWord 0xa1 _ _) by rw [wordCount_firstWord]; rfl

theorem jltDirect (dsp : Word) : Statement (.jltDirect dsp) :=
  show 2 = wordCount (firstWord 0xa0 _ _) by rw [wordCount_firstWord]; rfl

theorem jltIndexed (dsp : Word) (rx : Reg) : Statement (.jltIndexed dsp rx) :=
  show 2 = wordCount (firstWord 0xa1 _ _) by rw [wordCount_firstWord]; rfl

theorem jnzDirect (dsp : Word) : Statement (.jnzDirect dsp) :=
  show 2 = wordCount (firstWord 0xa0 _ _) by rw [wordCount_firstWord]; rfl

theorem jnzIndexed (dsp : Word) (rx : Reg) : Statement (.jnzIndexed dsp rx) :=
  show 2 = wordCount (firstWord 0xa1 _ _) by rw [wordCount_firstWord]; rfl

theorem jncDirect (dsp : Word) : Statement (.jncDirect dsp) :=
  show 2 = wordCount (firstWord 0xa0 _ _) by rw [wordCount_firstWord]; rfl

theorem jncIndexed (dsp : Word) (rx : Reg) : Statement (.jncIndexed dsp rx) :=
  show 2 = wordCount (firstWord 0xa1 _ _) by rw [wordCount_firstWord]; rfl

theorem jnmDirect (dsp : Word) : Statement (.jnmDirect dsp) :=
  show 2 = wordCount (firstWord 0xa0 _ _) by rw [wordCount_firstWord]; rfl

theorem jnmIndexed (dsp : Word) (rx : Reg) : Statement (.jnmIndexed dsp rx) :=
  show 2 = wordCount (firstWord 0xa1 _ _) by rw [wordCount_firstWord]; rfl

theorem jnoDirect (dsp : Word) : Statement (.jnoDirect dsp) :=
  show 2 = wordCount (firstWord 0xa0 _ _) by rw [wordCount_firstWord]; rfl

theorem jnoIndexed (dsp : Word) (rx : Reg) : Statement (.jnoIndexed dsp rx) :=
  show 2 = wordCount (firstWord 0xa1 _ _) by rw [wordCount_firstWord]; rfl

theorem jhiDirect (dsp : Word) : Statement (.jhiDirect dsp) :=
  show 2 = wordCount (firstWord 0xa0 _ _) by rw [wordCount_firstWord]; rfl

theorem jhiIndexed (dsp : Word) (rx : Reg) : Statement (.jhiIndexed dsp rx) :=
  show 2 = wordCount (firstWord 0xa1 _ _) by rw [wordCount_firstWord]; rfl

theorem jlsDirect (dsp : Word) : Statement (.jlsDirect dsp) :=
  show 2 = wordCount (firstWord 0xa0 _ _) by rw [wordCount_firstWord]; rfl

theorem jlsIndexed (dsp : Word) (rx : Reg) : Statement (.jlsIndexed dsp rx) :=
  show 2 = wordCount (firstWord 0xa1 _ _) by rw [wordCount_firstWord]; rfl

theorem jmpDirect (dsp : Word) : Statement (.jmpDirect dsp) :=
  show 2 = wordCount (firstWord 0xa0 _ _) by rw [wordCount_firstWord]; rfl

theorem jmpIndexed (dsp : Word) (rx : Reg) : Statement (.jmpIndexed dsp rx) :=
  show 2 = wordCount (firstWord 0xa1 _ _) by rw [wordCount_firstWord]; rfl

theorem callDirect (dsp : Word) : Statement (.callDirect dsp) :=
  show 2 = wordCount (firstWord 0xa8 _ _) by rw [wordCount_firstWord]; rfl

theorem callIndexed (dsp : Word) (rx : Reg) : Statement (.callIndexed dsp rx) :=
  show 2 = wordCount (firstWord 0xa9 _ _) by rw [wordCount_firstWord]; rfl

theorem inDirect (rd : Reg) (dsp : Word) : Statement (.inDirect rd dsp) :=
  show 2 = wordCount (firstWord 0xb0 _ _) by rw [wordCount_firstWord]; rfl

theorem inIndir (rd : Reg) (rx : Reg) : Statement (.inIndir rd rx) :=
  show 1 = wordCount (firstWord 0xb6 _ _) by rw [wordCount_firstWord]; rfl

theorem inByteIndir (rd : Reg) (rx : Reg) : Statement (.inByteIndir rd rx) :=
  show 1 = wordCount (firstWord 0xb7 _ _) by rw [wordCount_firstWord]; rfl

theorem outDirect (rd : Reg) (dsp : Word) : Statement (.outDirect rd dsp) :=
  show 2 = wordCount (firstWord 0xb8 _ _) by rw [wordCount_firstWord]; rfl

theorem outIndir (rd : Reg) (rx : Reg) : Statement (.outIndir rd rx) :=
  show 1 = wordCount (firstWord 0xbe _ _) by rw [wordCount_firstWord]; rfl

theorem outByteIndir (rd : Reg) (rx : Reg) : Statement (.outByteIndir rd rx) :=
  show 1 = wordCount (firstWord 0xbf _ _) by rw [wordCount_firstWord]; rfl

theorem push (rd : Reg) : Statement (.push rd) :=
  show 1 = wordCount (firstWord 0xc0 _ _) by rw [wordCount_firstWord]; rfl

theorem pop (rd : Reg) : Statement (.pop rd) :=
  show 1 = wordCount (firstWord 0xc4 _ _) by rw [wordCount_firstWord]; rfl

theorem ret : Statement (.ret) :=
  show 1 = wordCount (firstWord 0xd0 _ _) by rw [wordCount_firstWord]; rfl

theorem reti : Statement (.reti) :=
  show 1 = wordCount (firstWord 0xd4 _ _) by rw [wordCount_firstWord]; rfl

theorem svc : Statement (.svc) :=
  show 1 = wordCount (firstWord 0xf0 _ _) by rw [wordCount_firstWord]; rfl

theorem halt : Statement (.halt) :=
  show 1 = wordCount (firstWord 0xff _ _) by rw [wordCount_firstWord]; rfl

end Sys2Proof.Laws.EncodedLength
end

