-- ==== Sys2Proof/Tests/Slice0.lean ====
section
/-! SUPPORT. The model's own tests. The expected results come from spec/95_test_vectors.md (cited by section and number)
or from the encoding strings of spec/opcode_table.json; the witnesses show states that meet the hypotheses of the
statements. -/

namespace Sys2Proof.Machine.Tests

open Sys2Proof Sys2Proof.Machine

/-! ## Well-formedness: each check refuses an ill-formed term -/

theorem test_wf_dsp4_odd : (Instr.ldFpRel (.g 0) 3).wf = false := by decide
theorem test_wf_dsp4_too_large : (Instr.ldFpRel (.g 0) 16).wf = false := by decide
theorem test_wf_dsp4_too_small : (Instr.stFpRel (.g 0) (-18)).wf = false := by decide
theorem test_wf_dsp4_bounds : (Instr.ldFpRel (.g 0) 14).wf = true ∧ (Instr.stFpRel (.g 0) (-16)).wf = true := by decide
theorem test_wf_imm4_too_large : (Instr.addImm4 (.g 0) 8).wf = false := by decide
theorem test_wf_imm4_too_small : (Instr.ldImm4 (.g 0) (-9)).wf = false := by decide
theorem test_wf_imm4_bounds : (Instr.addImm4 (.g 0) 7).wf = true ∧ (Instr.ldImm4 (.g 0) (-8)).wf = true := by decide

/-! ## Decoding: a word of every row, written from the row's encoding string, with Rd = G1 and Rx or Rs = G2 -/

theorem test_decode_no :
    decode 0x0000 0x0000 = .instr .no := by decide

theorem test_decode_ld :
    decode 0x0810 0x1234 = .instr (.ldDirect (.g 1) 0x1234) ∧
      decode 0x0912 0x1234 = .instr (.ldIndexed (.g 1) 0x1234 (.g 2)) ∧
      decode 0x0A10 0x1234 = .instr (.ldImm (.g 1) 0x1234) ∧
      decode 0x0B1E 0x0000 = .instr (.ldFpRel (.g 1) (-4)) ∧
      decode 0x0C12 0x0000 = .instr (.ldReg (.g 1) (.g 2)) ∧
      decode 0x0D19 0x0000 = .instr (.ldImm4 (.g 1) (-7)) ∧
      decode 0x0E12 0x0000 = .instr (.ldIndir (.g 1) (.g 2)) ∧
      decode 0x0F12 0x0000 = .instr (.ldByteIndir (.g 1) (.g 2)) := by decide

theorem test_decode_st :
    decode 0x1010 0x1234 = .instr (.stDirect (.g 1) 0x1234) ∧
      decode 0x1112 0x1234 = .instr (.stIndexed (.g 1) 0x1234 (.g 2)) ∧
      decode 0x131E 0x0000 = .instr (.stFpRel (.g 1) (-4)) ∧
      decode 0x1612 0x0000 = .instr (.stIndir (.g 1) (.g 2)) ∧
      decode 0x1712 0x0000 = .instr (.stByteIndir (.g 1) (.g 2)) := by decide

theorem test_decode_add :
    decode 0x1810 0x1234 = .instr (.addDirect (.g 1) 0x1234) ∧
      decode 0x1912 0x1234 = .instr (.addIndexed (.g 1) 0x1234 (.g 2)) ∧
      decode 0x1A10 0x1234 = .instr (.addImm (.g 1) 0x1234) ∧
      decode 0x1B1E 0x0000 = .instr (.addFpRel (.g 1) (-4)) ∧
      decode 0x1C12 0x0000 = .instr (.addReg (.g 1) (.g 2)) ∧
      decode 0x1D19 0x0000 = .instr (.addImm4 (.g 1) (-7)) ∧
      decode 0x1E12 0x0000 = .instr (.addIndir (.g 1) (.g 2)) ∧
      decode 0x1F12 0x0000 = .instr (.addByteIndir (.g 1) (.g 2)) := by decide

theorem test_decode_sub :
    decode 0x2010 0x1234 = .instr (.subDirect (.g 1) 0x1234) ∧
      decode 0x2112 0x1234 = .instr (.subIndexed (.g 1) 0x1234 (.g 2)) ∧
      decode 0x2210 0x1234 = .instr (.subImm (.g 1) 0x1234) ∧
      decode 0x231E 0x0000 = .instr (.subFpRel (.g 1) (-4)) ∧
      decode 0x2412 0x0000 = .instr (.subReg (.g 1) (.g 2)) ∧
      decode 0x2519 0x0000 = .instr (.subImm4 (.g 1) (-7)) ∧
      decode 0x2612 0x0000 = .instr (.subIndir (.g 1) (.g 2)) ∧
      decode 0x2712 0x0000 = .instr (.subByteIndir (.g 1) (.g 2)) := by decide

theorem test_decode_cmp :
    decode 0x2810 0x1234 = .instr (.cmpDirect (.g 1) 0x1234) ∧
      decode 0x2912 0x1234 = .instr (.cmpIndexed (.g 1) 0x1234 (.g 2)) ∧
      decode 0x2A10 0x1234 = .instr (.cmpImm (.g 1) 0x1234) ∧
      decode 0x2B1E 0x0000 = .instr (.cmpFpRel (.g 1) (-4)) ∧
      decode 0x2C12 0x0000 = .instr (.cmpReg (.g 1) (.g 2)) ∧
      decode 0x2D19 0x0000 = .instr (.cmpImm4 (.g 1) (-7)) ∧
      decode 0x2E12 0x0000 = .instr (.cmpIndir (.g 1) (.g 2)) ∧
      decode 0x2F12 0x0000 = .instr (.cmpByteIndir (.g 1) (.g 2)) := by decide

theorem test_decode_and :
    decode 0x3010 0x1234 = .instr (.andDirect (.g 1) 0x1234) ∧
      decode 0x3112 0x1234 = .instr (.andIndexed (.g 1) 0x1234 (.g 2)) ∧
      decode 0x3210 0x1234 = .instr (.andImm (.g 1) 0x1234) ∧
      decode 0x331E 0x0000 = .instr (.andFpRel (.g 1) (-4)) ∧
      decode 0x3412 0x0000 = .instr (.andReg (.g 1) (.g 2)) ∧
      decode 0x3519 0x0000 = .instr (.andImm4 (.g 1) (-7)) ∧
      decode 0x3612 0x0000 = .instr (.andIndir (.g 1) (.g 2)) ∧
      decode 0x3712 0x0000 = .instr (.andByteIndir (.g 1) (.g 2)) := by decide

theorem test_decode_or :
    decode 0x3810 0x1234 = .instr (.orDirect (.g 1) 0x1234) ∧
      decode 0x3912 0x1234 = .instr (.orIndexed (.g 1) 0x1234 (.g 2)) ∧
      decode 0x3A10 0x1234 = .instr (.orImm (.g 1) 0x1234) ∧
      decode 0x3B1E 0x0000 = .instr (.orFpRel (.g 1) (-4)) ∧
      decode 0x3C12 0x0000 = .instr (.orReg (.g 1) (.g 2)) ∧
      decode 0x3D19 0x0000 = .instr (.orImm4 (.g 1) (-7)) ∧
      decode 0x3E12 0x0000 = .instr (.orIndir (.g 1) (.g 2)) ∧
      decode 0x3F12 0x0000 = .instr (.orByteIndir (.g 1) (.g 2)) := by decide

theorem test_decode_xor :
    decode 0x4010 0x1234 = .instr (.xorDirect (.g 1) 0x1234) ∧
      decode 0x4112 0x1234 = .instr (.xorIndexed (.g 1) 0x1234 (.g 2)) ∧
      decode 0x4210 0x1234 = .instr (.xorImm (.g 1) 0x1234) ∧
      decode 0x431E 0x0000 = .instr (.xorFpRel (.g 1) (-4)) ∧
      decode 0x4412 0x0000 = .instr (.xorReg (.g 1) (.g 2)) ∧
      decode 0x4519 0x0000 = .instr (.xorImm4 (.g 1) (-7)) ∧
      decode 0x4612 0x0000 = .instr (.xorIndir (.g 1) (.g 2)) ∧
      decode 0x4712 0x0000 = .instr (.xorByteIndir (.g 1) (.g 2)) := by decide

theorem test_decode_adds :
    decode 0x4810 0x1234 = .instr (.addsDirect (.g 1) 0x1234) ∧
      decode 0x4912 0x1234 = .instr (.addsIndexed (.g 1) 0x1234 (.g 2)) ∧
      decode 0x4A10 0x1234 = .instr (.addsImm (.g 1) 0x1234) ∧
      decode 0x4B1E 0x0000 = .instr (.addsFpRel (.g 1) (-4)) ∧
      decode 0x4C12 0x0000 = .instr (.addsReg (.g 1) (.g 2)) ∧
      decode 0x4D19 0x0000 = .instr (.addsImm4 (.g 1) (-7)) ∧
      decode 0x4E12 0x0000 = .instr (.addsIndir (.g 1) (.g 2)) ∧
      decode 0x4F12 0x0000 = .instr (.addsByteIndir (.g 1) (.g 2)) := by decide

theorem test_decode_mul :
    decode 0x5010 0x1234 = .instr (.mulDirect (.g 1) 0x1234) ∧
      decode 0x5112 0x1234 = .instr (.mulIndexed (.g 1) 0x1234 (.g 2)) ∧
      decode 0x5210 0x1234 = .instr (.mulImm (.g 1) 0x1234) ∧
      decode 0x531E 0x0000 = .instr (.mulFpRel (.g 1) (-4)) ∧
      decode 0x5412 0x0000 = .instr (.mulReg (.g 1) (.g 2)) ∧
      decode 0x5519 0x0000 = .instr (.mulImm4 (.g 1) (-7)) ∧
      decode 0x5612 0x0000 = .instr (.mulIndir (.g 1) (.g 2)) ∧
      decode 0x5712 0x0000 = .instr (.mulByteIndir (.g 1) (.g 2)) := by decide

theorem test_decode_div :
    decode 0x5810 0x1234 = .instr (.divDirect (.g 1) 0x1234) ∧
      decode 0x5912 0x1234 = .instr (.divIndexed (.g 1) 0x1234 (.g 2)) ∧
      decode 0x5A10 0x1234 = .instr (.divImm (.g 1) 0x1234) ∧
      decode 0x5B1E 0x0000 = .instr (.divFpRel (.g 1) (-4)) ∧
      decode 0x5C12 0x0000 = .instr (.divReg (.g 1) (.g 2)) ∧
      decode 0x5D19 0x0000 = .instr (.divImm4 (.g 1) (-7)) ∧
      decode 0x5E12 0x0000 = .instr (.divIndir (.g 1) (.g 2)) ∧
      decode 0x5F12 0x0000 = .instr (.divByteIndir (.g 1) (.g 2)) := by decide

theorem test_decode_mod :
    decode 0x6010 0x1234 = .instr (.modDirect (.g 1) 0x1234) ∧
      decode 0x6112 0x1234 = .instr (.modIndexed (.g 1) 0x1234 (.g 2)) ∧
      decode 0x6210 0x1234 = .instr (.modImm (.g 1) 0x1234) ∧
      decode 0x631E 0x0000 = .instr (.modFpRel (.g 1) (-4)) ∧
      decode 0x6412 0x0000 = .instr (.modReg (.g 1) (.g 2)) ∧
      decode 0x6519 0x0000 = .instr (.modImm4 (.g 1) (-7)) ∧
      decode 0x6612 0x0000 = .instr (.modIndir (.g 1) (.g 2)) ∧
      decode 0x6712 0x0000 = .instr (.modByteIndir (.g 1) (.g 2)) := by decide

theorem test_decode_shla :
    decode 0x8010 0x1234 = .instr (.shlaDirect (.g 1) 0x1234) ∧
      decode 0x8112 0x1234 = .instr (.shlaIndexed (.g 1) 0x1234 (.g 2)) ∧
      decode 0x8210 0x1234 = .instr (.shlaImm (.g 1) 0x1234) ∧
      decode 0x831E 0x0000 = .instr (.shlaFpRel (.g 1) (-4)) ∧
      decode 0x8412 0x0000 = .instr (.shlaReg (.g 1) (.g 2)) ∧
      decode 0x8519 0x0000 = .instr (.shlaImm4 (.g 1) (-7)) ∧
      decode 0x8612 0x0000 = .instr (.shlaIndir (.g 1) (.g 2)) ∧
      decode 0x8712 0x0000 = .instr (.shlaByteIndir (.g 1) (.g 2)) := by decide

theorem test_decode_shll :
    decode 0x8810 0x1234 = .instr (.shllDirect (.g 1) 0x1234) ∧
      decode 0x8912 0x1234 = .instr (.shllIndexed (.g 1) 0x1234 (.g 2)) ∧
      decode 0x8A10 0x1234 = .instr (.shllImm (.g 1) 0x1234) ∧
      decode 0x8B1E 0x0000 = .instr (.shllFpRel (.g 1) (-4)) ∧
      decode 0x8C12 0x0000 = .instr (.shllReg (.g 1) (.g 2)) ∧
      decode 0x8D19 0x0000 = .instr (.shllImm4 (.g 1) (-7)) ∧
      decode 0x8E12 0x0000 = .instr (.shllIndir (.g 1) (.g 2)) ∧
      decode 0x8F12 0x0000 = .instr (.shllByteIndir (.g 1) (.g 2)) := by decide

theorem test_decode_shra :
    decode 0x9010 0x1234 = .instr (.shraDirect (.g 1) 0x1234) ∧
      decode 0x9112 0x1234 = .instr (.shraIndexed (.g 1) 0x1234 (.g 2)) ∧
      decode 0x9210 0x1234 = .instr (.shraImm (.g 1) 0x1234) ∧
      decode 0x931E 0x0000 = .instr (.shraFpRel (.g 1) (-4)) ∧
      decode 0x9412 0x0000 = .instr (.shraReg (.g 1) (.g 2)) ∧
      decode 0x9519 0x0000 = .instr (.shraImm4 (.g 1) (-7)) ∧
      decode 0x9612 0x0000 = .instr (.shraIndir (.g 1) (.g 2)) ∧
      decode 0x9712 0x0000 = .instr (.shraByteIndir (.g 1) (.g 2)) := by decide

theorem test_decode_shrl :
    decode 0x9810 0x1234 = .instr (.shrlDirect (.g 1) 0x1234) ∧
      decode 0x9912 0x1234 = .instr (.shrlIndexed (.g 1) 0x1234 (.g 2)) ∧
      decode 0x9A10 0x1234 = .instr (.shrlImm (.g 1) 0x1234) ∧
      decode 0x9B1E 0x0000 = .instr (.shrlFpRel (.g 1) (-4)) ∧
      decode 0x9C12 0x0000 = .instr (.shrlReg (.g 1) (.g 2)) ∧
      decode 0x9D19 0x0000 = .instr (.shrlImm4 (.g 1) (-7)) ∧
      decode 0x9E12 0x0000 = .instr (.shrlIndir (.g 1) (.g 2)) ∧
      decode 0x9F12 0x0000 = .instr (.shrlByteIndir (.g 1) (.g 2)) := by decide

theorem test_decode_jz :
    decode 0xA000 0x1234 = .instr (.jzDirect 0x1234) ∧
      decode 0xA102 0x1234 = .instr (.jzIndexed 0x1234 (.g 2)) := by decide

theorem test_decode_jc :
    decode 0xA010 0x1234 = .instr (.jcDirect 0x1234) ∧
      decode 0xA112 0x1234 = .instr (.jcIndexed 0x1234 (.g 2)) := by decide

theorem test_decode_jm :
    decode 0xA020 0x1234 = .instr (.jmDirect 0x1234) ∧
      decode 0xA122 0x1234 = .instr (.jmIndexed 0x1234 (.g 2)) := by decide

theorem test_decode_jo :
    decode 0xA030 0x1234 = .instr (.joDirect 0x1234) ∧
      decode 0xA132 0x1234 = .instr (.joIndexed 0x1234 (.g 2)) := by decide

theorem test_decode_jgt :
    decode 0xA040 0x1234 = .instr (.jgtDirect 0x1234) ∧
      decode 0xA142 0x1234 = .instr (.jgtIndexed 0x1234 (.g 2)) := by decide

theorem test_decode_jge :
    decode 0xA050 0x1234 = .instr (.jgeDirect 0x1234) ∧
      decode 0xA152 0x1234 = .instr (.jgeIndexed 0x1234 (.g 2)) := by decide

theorem test_decode_jle :
    decode 0xA060 0x1234 = .instr (.jleDirect 0x1234) ∧
      decode 0xA162 0x1234 = .instr (.jleIndexed 0x1234 (.g 2)) := by decide

theorem test_decode_jlt :
    decode 0xA070 0x1234 = .instr (.jltDirect 0x1234) ∧
      decode 0xA172 0x1234 = .instr (.jltIndexed 0x1234 (.g 2)) := by decide

theorem test_decode_jnz :
    decode 0xA080 0x1234 = .instr (.jnzDirect 0x1234) ∧
      decode 0xA182 0x1234 = .instr (.jnzIndexed 0x1234 (.g 2)) := by decide

theorem test_decode_jnc :
    decode 0xA090 0x1234 = .instr (.jncDirect 0x1234) ∧
      decode 0xA192 0x1234 = .instr (.jncIndexed 0x1234 (.g 2)) := by decide

theorem test_decode_jnm :
    decode 0xA0A0 0x1234 = .instr (.jnmDirect 0x1234) ∧
      decode 0xA1A2 0x1234 = .instr (.jnmIndexed 0x1234 (.g 2)) := by decide

theorem test_decode_jno :
    decode 0xA0B0 0x1234 = .instr (.jnoDirect 0x1234) ∧
      decode 0xA1B2 0x1234 = .instr (.jnoIndexed 0x1234 (.g 2)) := by decide

theorem test_decode_jhi :
    decode 0xA0C0 0x1234 = .instr (.jhiDirect 0x1234) ∧
      decode 0xA1C2 0x1234 = .instr (.jhiIndexed 0x1234 (.g 2)) := by decide

theorem test_decode_jls :
    decode 0xA0E0 0x1234 = .instr (.jlsDirect 0x1234) ∧
      decode 0xA1E2 0x1234 = .instr (.jlsIndexed 0x1234 (.g 2)) := by decide

theorem test_decode_jmp :
    decode 0xA0F0 0x1234 = .instr (.jmpDirect 0x1234) ∧
      decode 0xA1F2 0x1234 = .instr (.jmpIndexed 0x1234 (.g 2)) := by decide

theorem test_decode_call :
    decode 0xA800 0x1234 = .instr (.callDirect 0x1234) ∧
      decode 0xA902 0x1234 = .instr (.callIndexed 0x1234 (.g 2)) := by decide

theorem test_decode_in :
    decode 0xB010 0x1234 = .instr (.inDirect (.g 1) 0x1234) ∧
      decode 0xB612 0x0000 = .instr (.inIndir (.g 1) (.g 2)) ∧
      decode 0xB712 0x0000 = .instr (.inByteIndir (.g 1) (.g 2)) := by decide

theorem test_decode_out :
    decode 0xB810 0x1234 = .instr (.outDirect (.g 1) 0x1234) ∧
      decode 0xBE12 0x0000 = .instr (.outIndir (.g 1) (.g 2)) ∧
      decode 0xBF12 0x0000 = .instr (.outByteIndir (.g 1) (.g 2)) := by decide

theorem test_decode_push :
    decode 0xC010 0x0000 = .instr (.push (.g 1)) := by decide

theorem test_decode_pop :
    decode 0xC410 0x0000 = .instr (.pop (.g 1)) := by decide

theorem test_decode_ret :
    decode 0xD000 0x0000 = .instr .ret := by decide

theorem test_decode_reti :
    decode 0xD4F0 0x0000 = .instr .reti := by decide

theorem test_decode_svc :
    decode 0xF000 0x0000 = .instr .svc := by decide

theorem test_decode_halt :
    decode 0xFF00 0x0000 = .instr .halt := by decide

/-! ## One step on a small state

`boxed` is the start state of the vectors: pc = 0100h, the words there, the ROM detached. -/

/-- Words at even addresses. -/
def poke (m : Memory) : List (Nat × Word) → Memory
  | [] => m
  | (a, v) :: rest => poke (Memory.write (Memory.write m a (hiByte v)) (a + 1) (loByte v)) rest

/-- The words at consecutive addresses from `a` on. -/
def wordsAt (a : Nat) : List Word → List (Nat × Word)
  | [] => []
  | v :: rest => (a, v) :: wordsAt (a + 2) rest

def boxed (flag : Word) (words : List Word) (cells : List (Nat × Word)) : State :=
  (((State.reset.setPc 0x0100).setFlag (Flags.ofWord flag)).setMem (poke (poke [] cells) (wordsAt 0x0100 words))).setMmu
    { Mmu.reset with iplDetached := true }

/-- The step has a next state, and it passes the check. -/
def steps (s : State) (check : State → Bool) : Bool :=
  match step s with
  | .next t => check t
  | .fault _ => false
  | .refused _ => false

/-- The step is refused for this reason. -/
def refuses (s : State) (why : Refusal) : Bool :=
  match step s with
  | .next _ => false
  | .fault _ => false
  | .refused r => r == why

/-- The word in memory. -/
def wordIn (t : State) (a : Nat) : Word := joinBytes (Memory.read t.mem a) (Memory.read t.mem (a + 1))

/-- V, C, S, Z as bits 3 to 0. -/
def conds (t : State) : Word := t.flag.toWord &&& 0x000F

/-- B1 1. -/
theorem test_no :
    steps (boxed 0x0040 [0x0000] [])
      (fun t => t.pc == 0x0102 && t.g == State.reset.g && t.flag == Flags.reset) = true := by decide

/-- B2 2. -/
theorem test_ld_indexed_wraps :
    steps ((boxed 0x0040 [0x0912, 0x0010] [(0x0000, 0x1357)]).setG 2 0xFFF0)
      (fun t => t.g[1] == 0x1357 && t.pc == 0x0104) = true := by decide

/-- B2 12. -/
theorem test_ld_byte_zero_extends :
    steps ((boxed 0x0040 [0x0F67] [(0x2000, 0xA55A)]).setG 7 0x2001)
      (fun t => t.g[6] == 0x005A && t.pc == 0x0102) = true := by decide

/-- B2 28. -/
theorem test_st_indexed_wraps :
    steps (((boxed 0x0040 [0x1112, 0xFFFE] []).setG 1 0xCAFE).setG 2 0x0004)
      (fun t => wordIn t 0x0002 == 0xCAFE && t.pc == 0x0104) = true := by decide

/-- B2 31. -/
theorem test_st_byte_keeps_its_neighbour :
    steps (((boxed 0x0040 [0x1712] [(0x1234, 0x1122)]).setG 1 0xCAFE).setG 2 0x1235)
      (fun t => wordIn t 0x1234 == 0x11FE) = true := by decide

/-- B3 1. -/
theorem test_add_carries :
    steps (((boxed 0x0040 [0x1C12] []).setG 1 0xFFFF).setG 2 0x0001)
      (fun t => t.g[1] == 0x0000 && conds t == 5 && t.pc == 0x0102) = true := by decide

/-- B3 2. -/
theorem test_add_overflows :
    steps (((boxed 0x0040 [0x1C12] []).setG 1 0x7FFF).setG 2 0x0001)
      (fun t => t.g[1] == 0x8000 && conds t == 10 && t.pc == 0x0102) = true := by decide

/-- B3 10. -/
theorem test_sub_borrows :
    steps (((boxed 0x0040 [0x2412] []).setG 1 0x0000).setG 2 0x0001)
      (fun t => t.g[1] == 0xFFFF && conds t == 6 && t.pc == 0x0102) = true := by decide

/-- B3 13. -/
theorem test_sub_overflows :
    steps (((boxed 0x0040 [0x2412] []).setG 1 0x7FFF).setG 2 0xFFFF)
      (fun t => t.g[1] == 0x8000 && conds t == 14 && t.pc == 0x0102) = true := by decide

/-- B3 15. -/
theorem test_cmp_writes_no_register :
    steps (((boxed 0x0040 [0x2C12] []).setG 1 0x0001).setG 2 0xFFFF)
      (fun t => t.g[1] == 0x0001 && conds t == 4 && t.pc == 0x0102) = true := by decide

/-- B3 17. -/
theorem test_cmp_signed_against_unsigned :
    steps (((boxed 0x0040 [0x2C12] []).setG 1 0x8000).setG 2 0x7FFF)
      (fun t => t.g[1] == 0x8000 && conds t == 8 && t.pc == 0x0102) = true := by decide

/-- B3 22. -/
theorem test_and_imm :
    steps ((boxed 0x0040 [0x3210, 0x00FF] []).setG 1 0x1234)
      (fun t => t.g[1] == 0x0034 && !t.flag.s && !t.flag.z && t.pc == 0x0104) = true := by decide

/-- B3 23. -/
theorem test_and_zero :
    steps (((boxed 0x0040 [0x3412] []).setG 1 0xF0F0).setG 2 0x0F0F)
      (fun t => t.g[1] == 0x0000 && !t.flag.s && t.flag.z && t.pc == 0x0102) = true := by decide

/-- B3 24. -/
theorem test_or :
    steps (((boxed 0x0040 [0x3C12] []).setG 1 0x8000).setG 2 0x0001)
      (fun t => t.g[1] == 0x8001 && t.flag.s && !t.flag.z && t.pc == 0x0102) = true := by decide

/-- B3 27. -/
theorem test_xor_imm4 :
    steps ((boxed 0x0040 [0x451F] []).setG 1 0x00FF)
      (fun t => t.g[1] == 0xFF00 && t.flag.s && !t.flag.z && t.pc == 0x0102) = true := by decide

/-- B3 28. -/
theorem test_adds :
    steps (((boxed 0x0040 [0x4C12] []).setG 1 0x2000).setG 2 0x0003)
      (fun t => t.g[1] == 0x2006 && !t.flag.s && !t.flag.z && t.pc == 0x0102) = true := by decide

/-- B3 29. -/
theorem test_adds_wraps :
    steps (((boxed 0x0040 [0x4C12] []).setG 1 0xFFFE).setG 2 0x8001)
      (fun t => t.g[1] == 0x0000 && !t.flag.s && t.flag.z && t.pc == 0x0102) = true := by decide

/-- B3 31. -/
theorem test_mul_imm :
    steps ((boxed 0x0040 [0x5210, 0x000A] []).setG 1 0x1234)
      (fun t => t.g[1] == 0xB608 && t.flag.s && !t.flag.z && t.pc == 0x0104) = true := by decide

/-- B3 32. -/
theorem test_mul_wraps :
    steps (((boxed 0x0040 [0x5412] []).setG 1 0xFFFF).setG 2 0xFFFF)
      (fun t => t.g[1] == 0x0001 && !t.flag.s && !t.flag.z && t.pc == 0x0102) = true := by decide

/-- B3 35. -/
theorem test_div :
    steps ((boxed 0x0040 [0x5D17] []).setG 1 0x0064)
      (fun t => t.g[1] == 0x000E && !t.flag.s && !t.flag.z && t.pc == 0x0102) = true := by decide

/-- B3 39. -/
theorem test_mod :
    steps ((boxed 0x0040 [0x6517] []).setG 1 0x0064)
      (fun t => t.g[1] == 0x0002 && !t.flag.s && !t.flag.z && t.pc == 0x0102) = true := by decide

/-- B3 42. -/
theorem test_div_by_zero_traps :
    steps (((boxed 0x0080 [0x5C12] []).setG 1 0x0005).setSsp 0x2000)
      (fun t => t.g[1] == 0x0005 && t.ssp == 0x1FFC && t.flag.toWord == 0x0040) = true := by decide

/-- B3 43. -/
theorem test_mod_by_zero_traps :
    steps (((boxed 0x0080 [0x6510] []).setG 1 0x0007).setSsp 0x2000)
      (fun t => t.g[1] == 0x0007 && t.ssp == 0x1FFC && t.flag.toWord == 0x0040) = true := by decide

/-- B4 1. -/
theorem test_shla :
    steps ((boxed 0x0040 [0x8513] []).setG 1 0x1234)
      (fun t => t.g[1] == 0x91A0 && t.flag.s && !t.flag.z && t.pc == 0x0102) = true := by decide

/-- B4 6. -/
theorem test_shll_by_itself :
    steps ((boxed 0x0040 [0x8C11] []).setG 1 0x0003)
      (fun t => t.g[1] == 0x0018 && !t.flag.s && !t.flag.z && t.pc == 0x0102) = true := by decide

/-- B4 8. -/
theorem test_shra_keeps_the_sign :
    steps ((boxed 0x0040 [0x9511] []).setG 1 0x8000)
      (fun t => t.g[1] == 0xC000 && t.flag.s && !t.flag.z && t.pc == 0x0102) = true := by decide

/-- B4 12. -/
theorem test_shrl :
    steps ((boxed 0x0040 [0x9D11] []).setG 1 0x8000)
      (fun t => t.g[1] == 0x4000 && !t.flag.s && !t.flag.z && t.pc == 0x0102) = true := by decide

/-- B4 15. -/
theorem test_shrl_byte_count :
    steps (((boxed 0x0040 [0x9F12] [(0x2000, 0x0004)]).setG 1 0xFF00).setG 2 0x2001)
      (fun t => t.g[1] == 0x0FF0 && !t.flag.s && !t.flag.z && t.pc == 0x0102) = true := by decide

/-- The flags V C S Z that are the bits 3 to 0 of a number. -/
def flagsOf (n : Nat) : Flags := Flags.ofWord (BitVec.ofNat 16 n)

/-- B5, the table of the sixteen flag states. -/
theorem test_jz_taken : (List.range 16).map (fun n => condHolds .z (flagsOf n)) =
    [false, true, false, true, false, true, false, true, false, true, false, true, false, true, false, true] := by decide

/-- B5, the table of the sixteen flag states. -/
theorem test_jc_taken : (List.range 16).map (fun n => condHolds .c (flagsOf n)) =
    [false, false, false, false, true, true, true, true, false, false, false, false, true, true, true, true] := by decide

/-- B5, the table of the sixteen flag states. -/
theorem test_jm_taken : (List.range 16).map (fun n => condHolds .m (flagsOf n)) =
    [false, false, true, true, false, false, true, true, false, false, true, true, false, false, true, true] := by decide

/-- B5, the table of the sixteen flag states. -/
theorem test_jo_taken : (List.range 16).map (fun n => condHolds .o (flagsOf n)) =
    [false, false, false, false, false, false, false, false, true, true, true, true, true, true, true, true] := by decide

/-- B5, the table of the sixteen flag states. -/
theorem test_jgt_taken : (List.range 16).map (fun n => condHolds .gt (flagsOf n)) =
    [true, false, false, false, true, false, false, false, false, false, true, false, false, false, true, false] := by decide

/-- B5, the table of the sixteen flag states. -/
theorem test_jge_taken : (List.range 16).map (fun n => condHolds .ge (flagsOf n)) =
    [true, true, false, false, true, true, false, false, false, false, true, true, false, false, true, true] := by decide

/-- B5, the table of the sixteen flag states. -/
theorem test_jle_taken : (List.range 16).map (fun n => condHolds .le (flagsOf n)) =
    [false, true, true, true, false, true, true, true, true, true, false, true, true, true, false, true] := by decide

/-- B5, the table of the sixteen flag states. -/
theorem test_jlt_taken : (List.range 16).map (fun n => condHolds .lt (flagsOf n)) =
    [false, false, true, true, false, false, true, true, true, true, false, false, true, true, false, false] := by decide

/-- B5, the table of the sixteen flag states. -/
theorem test_jnz_taken : (List.range 16).map (fun n => condHolds .nz (flagsOf n)) =
    [true, false, true, false, true, false, true, false, true, false, true, false, true, false, true, false] := by decide

/-- B5, the table of the sixteen flag states. -/
theorem test_jnc_taken : (List.range 16).map (fun n => condHolds .nc (flagsOf n)) =
    [true, true, true, true, false, false, false, false, true, true, true, true, false, false, false, false] := by decide

/-- B5, the table of the sixteen flag states. -/
theorem test_jnm_taken : (List.range 16).map (fun n => condHolds .nm (flagsOf n)) =
    [true, true, false, false, true, true, false, false, true, true, false, false, true, true, false, false] := by decide

/-- B5, the table of the sixteen flag states. -/
theorem test_jno_taken : (List.range 16).map (fun n => condHolds .no (flagsOf n)) =
    [true, true, true, true, true, true, true, true, false, false, false, false, false, false, false, false] := by decide

/-- B5, the table of the sixteen flag states. -/
theorem test_jhi_taken : (List.range 16).map (fun n => condHolds .hi (flagsOf n)) =
    [true, false, true, false, false, false, false, false, true, false, true, false, false, false, false, false] := by decide

/-- B5, the table of the sixteen flag states. -/
theorem test_jls_taken : (List.range 16).map (fun n => condHolds .ls (flagsOf n)) =
    [false, true, false, true, true, true, true, true, false, true, false, true, true, true, true, true] := by decide

/-- B5 1. -/
theorem test_jz_jumps :
    steps (boxed 0x0041 [0xA000, 0x0200] [])
      (fun t => t.pc == 0x0200) = true := by decide

/-- B5 6. -/
theorem test_jm_not_taken :
    steps ((boxed 0x0040 [0xA121, 0x0100] []).setG 1 0x0006)
      (fun t => t.pc == 0x0104) = true := by decide

/-- B5 4. -/
theorem test_jmp_indexed_wraps :
    steps ((boxed 0x0040 [0xA1F1, 0xFFFE] []).setG 1 0x0006)
      (fun t => t.pc == 0x0004) = true := by decide

/-- B6 3. -/
theorem test_call_wraps :
    steps (boxed 0x0040 [0xA800, 0x0300] [])
      (fun t => wordIn t 0xFFFE == 0x0104 && t.ssp == 0xFFFE && t.pc == 0x0300) = true := by decide

/-- B6 4. -/
theorem test_call_on_the_user_stack :
    steps ((((boxed 0x0000 [0xA902, 0x0300] []).setG 2 0x0010).setUsp 0x1800).setSsp 0x3000)
      (fun t => wordIn t 0x17FE == 0x0104 && t.usp == 0x17FE && t.ssp == 0x3000 && t.pc == 0x0310) = true := by decide

/-- U23 of 93_implementation_defined.md, 60_exceptions.md R230. -/
theorem test_in_free_port :
    steps ((boxed 0x0020 [0xB010, 0x0038] []).setG 1 0x1234)
      (fun t => t.g[1] == 0x0000 && t.pc == 0x0104) = true := by decide

/-- B7 9. -/
theorem test_in_without_privilege :
    steps (((boxed 0x0000 [0xB010, 0x0008] []).setG 1 0x1234).setSsp 0x3000)
      (fun t => t.g[1] == 0x1234 && t.ssp == 0x2FFC && t.flag.toWord == 0x0040 && t.io == Io.reset) = true := by decide

/-- B7 5. -/
theorem test_out_word :
    steps ((boxed 0x0040 [0xB810, 0x0002] []).setG 1 0x8001)
      (fun t => t.io.history == [.write .word 0x0002 0x8001] && Io.timer0Control t.io == 0x8001 && t.io.irqEnabled == 1 && t.pc == 0x0104) = true := by decide

/-- B7 7. -/
theorem test_out_byte :
    steps (((boxed 0x0040 [0xBF12] []).setG 1 0xABCD).setG 2 0x0009)
      (fun t => t.io.history == [.write .byte 0x0009 0x00CD] && Io.ft232rlData t.io == 0xCD) = true := by decide

/-- B8 2. -/
theorem test_push_wraps :
    steps ((boxed 0x0040 [0xC010] []).setG 1 0xBEEF)
      (fun t => wordIn t 0xFFFE == 0xBEEF && t.ssp == 0xFFFE) = true := by decide

/-- B8 3. -/
theorem test_push_flag :
    steps ((boxed 0x00CA [0xC0F0] []).setSsp 0x1000)
      (fun t => wordIn t 0x0FFE == 0x00CA && t.ssp == 0x0FFE && t.flag.toWord == 0x00CA) = true := by decide

/-- B8 9. -/
theorem test_pop_wraps :
    steps ((boxed 0x0040 [0xC410] [(0xFFFE, 0x1234)]).setSsp 0xFFFE)
      (fun t => t.g[1] == 0x1234 && t.ssp == 0x0000) = true := by decide

/-- B8 11. -/
theorem test_pop_flag_in_user_mode :
    steps ((boxed 0x0020 [0xC4F0] [(0x17FE, 0xFFFF)]).setUsp 0x17FE)
      (fun t => t.flag.toWord == 0x002F && t.usp == 0x1800) = true := by decide

/-- B8 15. -/
theorem test_ret :
    steps ((boxed 0x0040 [0xD000] [(0x0FFE, 0x0104)]).setSsp 0x0FFE)
      (fun t => t.pc == 0x0104 && t.ssp == 0x1000) = true := by decide

/-- B8 17. -/
theorem test_reti_leaves_privileged_mode :
    steps (((boxed 0x0040 [0xD4F0] [(0x1FFC, 0x0081), (0x1FFE, 0x0400)]).setSsp 0x1FFC).setUsp 0x1800)
      (fun t => t.flag.toWord == 0x0081 && t.pc == 0x0400 && t.ssp == 0x2000 && t.usp == 0x1800) = true := by decide

/-- B8 19. -/
theorem test_reti_in_user_mode :
    steps (((boxed 0x0020 [0xD4F0] [(0x17FC, 0x00CF), (0x17FE, 0x0400)]).setUsp 0x17FC).setSsp 0x3000)
      (fun t => t.flag.toWord == 0x002F && t.pc == 0x0400 && t.ssp == 0x3000 && t.usp == 0x1800) = true := by decide

/-- B9 2. -/
theorem test_svc_from_user_mode :
    steps (((boxed 0x00A2 [0xF000] [(0xFFFC, 0xE500)]).setSsp 0x2000).setUsp 0x1800)
      (fun t => wordIn t 0x1FFE == 0x0102 && wordIn t 0x1FFC == 0x00A2 && t.ssp == 0x1FFC && t.pc == 0xE500 && t.flag.toWord == 0x0062) = true := by decide

/-- B9 4. -/
theorem test_svc_overwrites_its_vector :
    steps (boxed 0x0040 [0xF000] [(0xFFFC, 0xE500)])
      (fun t => wordIn t 0xFFFE == 0x0102 && wordIn t 0xFFFC == 0x0040 && t.ssp == 0xFFFC && t.pc == 0x0040) = true := by decide

/-- B9 5. -/
theorem test_halt :
    steps (boxed 0x0040 [0xFF00] [])
      (fun t => t.halted && t.pc == 0x0102 && t.flag.toWord == 0x0040) = true := by decide

/-- B9 7. -/
theorem test_halt_without_privilege :
    steps ((boxed 0x0020 [0xFF00] []).setSsp 0x3000)
      (fun t => !t.halted && t.ssp == 0x2FFC && t.flag.toWord == 0x0060) = true := by decide

/-- B1 5. -/
theorem test_undefined_word_traps :
    steps ((boxed 0x0040 [0x1210] []).setSsp 0x3000)
      (fun t => t.ssp == 0x2FFC && t.flag.toWord == 0x0040) = true := by decide

/-- B1 12. -/
theorem test_fixed_field_is_refused :
    refuses (boxed 0x0040 [0x0811, 0x1234] []) (.encoding .fixedField) = true := by decide

/-- B3 46. -/
theorem test_flag_as_a_result_is_refused :
    refuses (boxed 0x0040 [0x1DF1] []) .flagDestination = true := by decide

/-- B7 14. -/
theorem test_odd_port_is_refused :
    refuses ((boxed 0x0040 [0xB612] []).setG 2 0x0009) .ioWordAtOddAddress = true := by decide

/-- B6 6. -/
theorem test_odd_ssp_is_refused :
    refuses ((boxed 0x0040 [0xA800, 0x0300] []).setSsp 0x1001) .trapEntryFault = true := by decide

/-- B10 1 and 3: an accepted interrupt, whatever the oracle is. -/
theorem test_interrupt_entry :
    (match takeInterrupt 0 (((boxed 0x0086 [] [(0xFFE0, 0x042C)]).setPc 0x0426).setSsp 0x1000) with
      | .next t => wordIn t 0x0FFE == 0x0426 && wordIn t 0x0FFC == 0x0086 && t.ssp == 0x0FFC &&
          t.flag.toWord == 0x0046 && t.pc == 0x042C
      | .fault _ => false
      | .refused _ => false) = true := by decide

/-- The first step after reset runs the instruction that is placed for it. -/
theorem test_first_step : steps (State.reset.withFetchWord 32 0x12340A10) (fun t => t.g[1] == 0x1234) = true := by decide

/-! ## Witnesses: states and operands that meet the hypotheses of the statements -/

/-- A privileged machine with both stacks in RAM, the words at pc. -/
def priv (words : List Word) : State :=
  (((((boxed 0x0040 words [(0x2000, 0x1234)]).setSsp 0x3000).setUsp 0x1800).setG 1 5).setG 2 0x2000).setFp 0x2000

/-- The same in user mode without the I/O privilege. -/
def user (words : List Word) : State := (priv words).setFlag (Flags.ofWord 0)

/-- The same with the IPL ROM attached. -/
def attached : State := (priv []).setMmu Mmu.reset

/-- The same with relocation enabled. -/
def translating : State :=
  (priv []).setMmu { Mmu.reset with relocation := true }

/-- The outcome is a next state, and it passes the check. -/
def Answers (r : Result) (check : State → Bool) : Prop := ∃ t, r = .next t ∧ check t = true

theorem answers_of {r : Result} {t : State} {check : State → Bool} (h : r = .next t) (hc : check t = true) :
    Answers r check := ⟨t, h, hc⟩

theorem witness_WarmResetIsResetButForRam : (0x2E : Nat) ≠ 0x2F ∧ (0x30 : Nat) ≠ 0x2F := by decide

theorem witness_DecodeOfEncodeIsTheInstruction :
    (Instr.addImm4 (.g 1) (-8)).wf = true ∧ (Instr.stFpRel .flag 14).wf = true := by decide

theorem witness_EncodeOfDecodeIsTheWords :
    decode 0x0A10 0xFFFF = .instr (.ldImm (.g 1) 0xFFFF) ∧ decode 0x1DDF 0 = .instr (.addImm4 .sp (-1)) := by decide

theorem witness_RefusedWordsAreRefused :
    (opField 0xA600).toNat = 0xA6 ∧ (opField 0xAE00).toNat = 0xAE ∧
      ((opField 0xA0D0).toNat = 0xA0 ∧ rdField 0xA0D0 = 0xD) ∧ ((opField 0xD400).toNat = 0xD4 ∧ rdField 0xD400 ≠ 0xF) ∧
      ((opField 0xD4F1).toNat = 0xD4 ∧ rdField 0xD4F1 = 0xF ∧ rxField 0xD4F1 ≠ 0) ∧
      ((opField 0xFFF0).toNat = 0xFF ∧ rdField 0xFFF0 ≠ 0) ∧ ((opField 0xA8F0).toNat = 0xA8 ∧ rdField 0xA8F0 ≠ 0) ∧
      ((opField 0xA911).toNat = 0xA9 ∧ rdField 0xA911 ≠ 0) ∧ ((opField 0xC011).toNat = 0xC0 ∧ rxField 0xC011 ≠ 0) ∧
      ((opField 0x1811).toNat = 0x18 ∧ rxField 0x1811 ≠ 0) ∧ ((opField 0x621F).toNat = 0x62 ∧ rxField 0x621F ≠ 0) ∧
      ((opField 0x9A1F).toNat = 0x9A ∧ rxField 0x9A1F ≠ 0) ∧
      ((opField 0xA0F1).toNat = 0xA0 ∧ rdField 0xA0F1 ≠ 0xD ∧ rxField 0xA0F1 ≠ 0) := by decide

theorem witness_RegisterNumbersReadTheirRegisters : (0x0 : BitVec 4).toNat < 12 ∧ (0xB : BitVec 4).toNat < 12 := by decide

theorem witness_RegisterNumbersWriteTheirRegisters : (0x0 : BitVec 4).toNat < 12 ∧ (0xB : BitVec 4).toNat < 12 := by
  decide

theorem witness_FlagWritesAreFiltered : (Flags.ofWord 0x0040).p = true ∧ (Flags.ofWord 0x00A5).p = false := by decide

theorem witness_ByteAccessesHaveNoAlignmentFault :
    mmuOn (priv []) = false ∧ romAt (priv []) (0xFFFF : Word).toNat = false := by decide

theorem witness_WordAccessesAreBigEndianAndAligned :
    isOdd 0x0001 = true ∧ isOdd 0xFFFF = true ∧ isOdd 0x0000 = false ∧ isOdd 0xFFFE = false ∧
      mmuOn (priv []) = false ∧ romTouched .word (0xFFFE : Word).toNat (priv []) = false := by decide

theorem witness_AttachedRomHidesTheRam :
    (mmuOn attached = false ∧ attached.mmu.iplDetached = false ∧ isOdd 0xE000 = false) ∧
      (Config.romBase ≤ (0xE000 : Word).toNat ∧ (0xE000 : Word).toNat < Config.romLimit) ∧
      (priv []).mmu.iplDetached = true :=
  ⟨by decide, ⟨Nat.min_le_right _ _, Nat.lt_of_lt_of_le (Nat.lt_succ_self _) (Nat.le_max_right _ _)⟩, by decide⟩

theorem witness_OperandFormsGiveTheirValues :
    mmuOn (priv []) = false ∧ isOdd 0xFFFE = false ∧ isOdd (0xFFFE + readReg (.g 2) (priv [])) = false ∧
      isOdd ((priv []).fp + BitVec.ofInt 16 (-16)) = false ∧ isOdd (readReg (.g 2) (priv [])) = false := by decide

theorem witness_NoOperationOnlyAdvancesPc :
    opField 0x000F = 0 ∧ (0x000F : Word) ≠ 0 ∧ fetchReady (priv [0x0000]) = true ∧
      wordAt (priv [0x0000]) (priv [0x0000]).pc = 0 := by decide

theorem witness_LoadPutsTheOperandInItsRegister :
    [Operand.mem (.direct 0xFFFE), .mem (.indexed 0xE000 (.g 2)), .imm 0xFFFF, .mem (.fpRel (-16)), .reg .flag, .imm4 7,
      .mem (.indir .sp), .mem (.byteIndir (.g 1))].all (fun x => operandReady x (priv [])) = true := by decide

/-- The operand forms the witnesses of the flag-changing instructions use, with the values 0, 1234h, 12h. -/
def sampleOperands : List Operand :=
  [.mem (.direct 0x2000), .mem (.indexed 0xFFFE (.g 2)), .imm 0, .mem (.fpRel 14), .reg (.g 1), .imm4 (-8),
    .mem (.indir (.g 2)), .mem (.byteIndir (.g 2))]

theorem witness_StoreWritesItsBytesOnly :
    [MemEa.direct 0xFFFE, .indexed 0x0002 (.g 2), .fpRel 14, .indir (.g 2), .byteIndir (.g 1)].all (fun x =>
      eaReady x (priv []) && !romTouched (memWidth x) (memAddr x (priv [])).toNat (priv [])) = true ∧
      memWidth (.direct 0xFFFE) = .word ∧ memWidth (.byteIndir (.g 1)) = .byte := by decide

theorem witness_LoadAfterStoreGivesTheValue :
    eaReady (.direct 0x2000) (priv []) = true ∧
      romTouched (memWidth (.direct 0x2000)) (memAddr (.direct 0x2000) (priv [])).toNat (priv []) = false ∧
      memWidth (.direct 0x2000) = .word ∧ memWidth (.indir (.g 2)) = .word ∧ (Reg.sp ≠ .flag) ∧
      Answers (exec (.ofSt (.g 1) (.direct 0x2000)) (priv []))
        (fun t => memAddr (.indir (.g 2)) t == memAddr (.direct 0x2000) (priv [])) :=
  ⟨by decide, by decide, rfl, rfl, by decide, answers_of rfl (by decide)⟩

theorem witness_OddOperandsTakeTheViolation :
    [MemEa.direct 0xFFFF, .indexed 0x0001 (.g 2), .indir (.g 1)].all (fun x =>
      memWidth x == .word && isOdd (memAddr x (user [])) && trapReady (user [])) = true ∧ Reg.g 1 ≠ .flag := by decide

theorem witness_AddGivesTheSumAndItsFlags :
    Reg.usp ≠ .flag ∧ sampleOperands.all (fun x => operandReady x (priv [])) = true := by decide

theorem witness_SubGivesTheDifferenceAndItsFlags :
    Reg.g 1 ≠ .flag ∧ sampleOperands.all (fun x => operandReady x (priv [])) = true := by decide

theorem witness_CompareSetsTheFlagsOnly : sampleOperands.all (fun x => operandReady x (user [])) = true := by decide

theorem witness_LogicWorksBitByBit :
    Reg.sp ≠ .flag ∧ sampleOperands.all (fun x => operandReady x (user [])) = true := by decide

theorem witness_ScaledAddAndMultiplyWrap :
    Reg.fp ≠ .flag ∧ sampleOperands.all (fun x => operandReady x (priv [])) = true := by decide

theorem witness_DivisionIsExactWhereSignsAgree :
    Reg.g 1 ≠ .flag ∧ operandReady (.reg (.g 2)) (priv []) = true ∧ operandWord (.reg (.g 2)) (priv []) ≠ 0 ∧
      ((readReg (.g 1) (priv [])).toNat ≤ 0x7FFF ∧ (operandWord (.imm 0x7FFF) (priv [])).toNat ≤ 0x7FFF) ∧
      operandReady (.imm 0x8000) (priv []) = true ∧ operandWord (.imm 0x8000) (priv []) ≠ 0 ∧
      ¬((readReg (.g 1) (priv [])).toNat ≤ 0x7FFF ∧ (operandWord (.imm 0x8000) (priv [])).toNat ≤ 0x7FFF) := by decide

theorem witness_DivisionByZeroTraps :
    Reg.g 1 ≠ .flag ∧ operandReady (.imm4 0) (user []) = true ∧ operandWord (.imm4 0) (user []) = 0 ∧
      trapReady (user []) = true := by decide

theorem witness_ShiftsGiveTheirResults :
    Reg.g 1 ≠ .flag ∧ sampleOperands.all (fun x => operandReady x (priv [])) = true ∧
      (operandWord (.imm 15) (priv [])).toNat ≤ 15 ∧ 15 < (operandWord (.imm 16) (priv [])).toNat := by decide

theorem witness_RegistersWithoutMeaningAreRefused : AluOp.shrl ≠ .cmp ∧ (user []).flag.p = false := by decide

theorem witness_OneFlagJumpsFollowTheirFlag :
    ((flagsOf 15).z = true ∧ (flagsOf 15).c = true ∧ (flagsOf 15).s = true ∧ (flagsOf 15).v = true) ∧
      (flagsOf 0).z = false ∧ (flagsOf 0).c = false ∧ (flagsOf 0).s = false ∧ (flagsOf 0).v = false := by decide

theorem witness_RelationJumpsFollowTheirFlags :
    ((flagsOf 10).z = false ∧ (flagsOf 10).s = (flagsOf 10).v) ∧ ((flagsOf 2).s ≠ (flagsOf 2).v) ∧
      ((flagsOf 0).z = false ∧ (flagsOf 0).c = false) ∧ (flagsOf 5).z = true ∧ (flagsOf 5).c = true := by decide

theorem witness_ComparisonJumpsTestTheirRelation :
    operandReady (.reg (.g 2)) (priv []) = true ∧ (AluOp.sub = .sub ∧ Reg.g 1 ≠ .flag) := by decide

theorem witness_CallPushesTheReturnAddress : pushReady (priv []) = true ∧ pushReady (user []) = true := by decide

theorem witness_ReturnPopsThePc : popReady (priv []) = true ∧ popReady (user []) = true := by decide

theorem witness_ReturnAfterCallComesBack :
    pushReady (priv []) = true ∧ ∃ t u : State, exec (.ofCall (.direct 0x0300)) (priv []) = .next t ∧ u.g[0] = 7 ∧
      u.mem = t.mem ∧ u.mmu = t.mmu ∧ u.flag.p = t.flag.p ∧ readReg .sp u = readReg .sp t :=
  ⟨by decide, _, State.setG _ 0 7, rfl, rfl, rfl, rfl, rfl, rfl⟩

theorem witness_PushStoresTheRegister :
    (namesStackPointer .usp (priv []) = false ∧ pushReady (priv []) = true) ∧
      namesStackPointer .flag (user []) = false ∧ pushReady (user []) = true := by decide

theorem witness_PopLoadsTheRegister :
    (namesStackPointer .usp (priv []) = false ∧ popReady (priv []) = true) ∧
      namesStackPointer .flag (user []) = false ∧ popReady (user []) = true := by decide

theorem witness_PopAfterPushMovesTheValue :
    namesStackPointer .flag (priv []) = false ∧ namesStackPointer (.g 2) (priv []) = false ∧ Reg.g 2 ≠ .flag ∧
      pushReady (priv []) = true ∧ Answers (exec (.push .flag) (priv [])) (fun _ => true) ∧ Reg.fp ≠ Reg.g 2 ∧
      Reg.fp ≠ .sp :=
  ⟨by decide, by decide, by decide, by decide, answers_of rfl rfl, by decide, by decide⟩

theorem witness_OddStackPointerTakesTheViolation :
    (isOdd (readReg .sp ((user []).setUsp 0x17FF)) = true ∧
      namesStackPointer .flag ((user []).setUsp 0x17FF) = false ∧ ((user []).setUsp 0x17FF).flag.p = false ∧
      trapReady ((user []).setUsp 0x17FF) = true) ∧
      isOdd (readReg .sp ((priv []).setSsp 0x3001)) = true ∧ namesStackPointer .flag ((priv []).setSsp 0x3001) = false ∧
      ((priv []).setSsp 0x3001).flag.p = true := by decide

theorem witness_ReturnFromTrapRestoresFlagAndPc :
    (popReady (priv []) = true ∧ (priv []).flag.p = true) ∧ popReady (user []) = true ∧ (user []).flag.p = false := by
  decide

theorem witness_SupervisorCallEntersItsTrap : trapReady (priv []) = true ∧ trapReady (user []) = true := by decide

theorem witness_ReturnFromSupervisorCallResumes :
    trapReady (user []) = true ∧ ∃ t u : State, exec .svc (user []) = .next t ∧ u.flag.z = true ∧ u.mem = t.mem ∧
      u.mmu = t.mmu ∧ u.ssp = t.ssp ∧ u.usp = t.usp ∧ u.flag.p = true :=
  ⟨by decide, _, State.setFlag _ (Flags.ofWord 0x41), rfl, rfl, rfl, rfl, rfl, rfl, rfl⟩

theorem witness_HaltStopsThePrivilegedCpu :
    (priv []).flag.p = true ∧ ((priv []).setHalted true).halted = true ∧ (user []).flag.p = false ∧
      trapReady (user []) = true := by decide

theorem witness_InputReadsThePort :
    ioReady (.direct 0x00FE) (priv []) = true ∧ ioReady (.indir (.g 3)) (priv []) = true ∧
      ioReady (.byteIndir (.g 1)) ((user []).setFlag (Flags.ofWord 0x20)) = true ∧ ioWidth (.direct 0x00FE) = .word ∧
      ioWidth (.byteIndir (.g 1)) = .byte := by decide

theorem witness_PortsReadWithinTheirLayout :
    ((0x38 : Nat) ≤ 0x38 ∧ (0x38 : Nat) ≤ 0xEF) ∧ ((0x38 : Nat) ≤ 0xEF ∧ (0xEF : Nat) ≤ 0xEF) ∧
      (0x08 : Nat) ∈ [0x08, 0xFE] ∧ (0xFE : Nat) ∈ [0x08, 0xFE] := by decide

theorem witness_OutputWritesThePort :
    [IoEa.direct 0x0000, .direct 0x00EE, .direct 0x00F4, .direct 0x00F8, .direct 0x00FE, .byteIndir (.g 1)].all (fun x =>
      ioReady x (priv []) && !reattaches x (readReg (.g 1) (priv [])) (priv [])) = true ∧
      outByteAt (.direct 0x00FE) 0x1234 (priv []) 0xFF = some 0x34 ∧ outByteAt (.direct 0x00FE) 0x1234 (priv []) 0xFD = none ∧
      outByteAt (.direct 0x00F6) 0x1234 (priv []) 0xF7 = some 0x34 := by decide

/-- The port's address in G2, a value with bit 0 set in G1. -/
def atPort (p : Word) : State := (priv []).setG 2 p

theorem witness_MmuPortsSetTheirRegisters :
    ([0x00F0, 0x00F2, 0x00F4, 0x00F6].all fun p =>
      ioReady (.direct p) (atPort p) && ioReady (.indir (.g 2)) (atPort p) &&
        !reattaches (.indir (.g 2)) (readReg (.g 1) (atPort p)) (atPort p)) = true ∧
      ([0x00F0, 0x00F1, 0x00F2, 0x00F3, 0x00F4, 0x00F5, 0x00F6, 0x00F7].all fun p =>
        ioReady (.byteIndir (.g 2)) (atPort p) &&
          !reattaches (.byteIndir (.g 2)) (readReg (.g 1) (atPort p)) (atPort p)) = true ∧
      reattaches (.direct 0x00F0) (readReg (.g 2) (priv [])) (priv []) = true ∧
      ioReady (.direct 0x00F0) (priv []) = true := by decide

theorem witness_InputOutputNeedPrivilege :
    (user []).flag.p = false ∧ (user []).flag.i = false ∧ trapReady (user []) = true := by decide

theorem witness_IoAddressesWithoutMeaningAreRefused :
    ioAllowed (priv []) = true ∧ 255 < (ioAddr (.direct 0x0100) (priv [])).toNat ∧
      ((ioAddr (.direct 0x00FF) (priv [])).toNat ≤ 255 ∧ ioWidth (.direct 0x00FF) = .word ∧
        isOdd (ioAddr (.direct 0x00FF) (priv [])) = true) := by decide

theorem witness_StepRunsTheDecodedInstruction :
    fetchReady (priv [0x0A10, 0x1234]) = true ∧
      decode (wordAt (priv [0x0A10, 0x1234]) (priv [0x0A10, 0x1234]).pc) (secondWord (priv [0x0A10, 0x1234])) =
        .instr (.ldImm (.g 1) 0x1234) ∧ (priv []).io.usdStarted = false := by decide

theorem witness_StepOnAWordThatIsNoInstruction :
    (fetchReady (priv [0x1210]) = true ∧ decode (wordAt (priv [0x1210]) 0x0100) (secondWord (priv [0x1210])) = .undefined ∧
      trapReady (priv [0x1210]) = true) ∧ fetchReady (priv [0xD400]) = true ∧
      decode (wordAt (priv [0xD400]) 0x0100) (secondWord (priv [0xD400])) = .rejected .retiRd := by decide

theorem witness_OddPcTakesTheViolation :
    ((user []).setPc 0x0101).halted = false ∧ acceptedInterrupt ((user []).setPc 0x0101) = none ∧
      isOdd ((user []).setPc 0x0101).pc = true ∧ trapReady ((user []).setPc 0x0101) = true := by decide

/-- User mode, E = 1, sources 0 and 9 enabled. -/
def interruptible : State := ((user []).setFlag (Flags.ofWord 0x80)).setIo { Io.reset with irqEnabled := 0x201 }

theorem witness_InterruptsAreTakenBetweenInstructions :
    (user []).flag.e = false ∧ interruptible.flag.e = true ∧
      (∀ k : Fin 10, interruptible.io.irqEnabled.getLsbD k = true → (0x1FE : BitVec 10).getLsbD k = false) ∧
      interruptible.io.irqEnabled.getLsbD (9 : Fin 10) = true ∧ (0x200 : BitVec 10).getLsbD (9 : Fin 10) = true ∧
      interruptible.halted = false ∧ mmuOn interruptible = false ∧ trapReady interruptible = true := by decide

theorem witness_EnabledMmuRefusesTheStep : translating.halted = false ∧ mmuOn translating = true := by decide

theorem witness_EveryStepKeepsTheInvariant :
    stateInv (priv [0xC010]) = true ∧ Answers (step (priv [0xC010])) (fun _ => true) := ⟨by decide, answers_of rfl rfl⟩

theorem witness_UserModeIsLeftOnlyByTraps :
    (user [0xF000]).flag.p = false ∧ Answers (step (user [0xF000])) (fun t => t.flag.p) :=
  ⟨by decide, answers_of rfl (by decide)⟩

theorem witness_UserModeIsConfined :
    (user []).flag.p = false ∧ (user []).flag.i = false ∧ Answers (exec .ret (user [])) (fun _ => true) :=
  ⟨by decide, by decide, answers_of rfl rfl⟩

theorem witness_OnlyHaltHalts : Answers (exec .halt (priv [])) (fun t => t.halted != (priv []).halted) :=
  answers_of rfl (by decide)

theorem witness_EveryInstructionGoesOn :
    trapReady (priv []) = true ∧ [Instr.no, .ldImm .flag 0, .stDirect .sp 0xFFFE, .shrlImm (.g 1) 16, .divImm4 (.g 1) 0,
      .jmpDirect 0x0201, .callDirect 0x0300, .inDirect (.g 1) 0x00FE, .outDirect (.g 1) 0x00F0, .push .flag, .pop .usp,
      .ret, .reti, .svc, .halt].all (fun i => !givenNoMeaning i (priv [])) = true := by decide

theorem witness_StateCountsFollowTheTable :
    (AluOp.xor = .add ∨ AluOp.xor = .sub ∨ AluOp.xor = .cmp ∨ AluOp.xor = .and ∨ AluOp.xor = .or ∨ AluOp.xor = .xor) ∧
      (AluOp.div = .div ∨ AluOp.div = .mod) ∧
      (AluOp.shla = .shla ∨ AluOp.shla = .shll ∨ AluOp.shla = .shra ∨ AluOp.shla = .shrl) := by decide

end Sys2Proof.Machine.Tests
end

section
/-! SUPPORT. The registers and FLAG by number (10_state.md R24, R25, R29, R33). -/

namespace Sys2Proof

/-- The numbers 0h to Bh name G0 to G11 (10_state.md R24). -/
theorem Reg.ofField_of_lt {f : BitVec 4} (h : f.toNat < 12) : Reg.ofField f = .g ⟨f.toNat, h⟩ := by
  simp [Reg.ofField, h]

end Sys2Proof

namespace Sys2Proof.Machine

/-- FLAG's bits by position (10_state.md R29), in the form `simp` gives a bit at a literal position. -/
theorem Flags.getElem_toWord (f : Flags) (k : Nat) (hk : k < 16) :
    f.toWord[k] = (f.e && decide (k = 7) || f.p && decide (k = 6) || f.i && decide (k = 5) ||
      f.v && decide (k = 3) || f.c && decide (k = 2) || f.s && decide (k = 1) || f.z && decide (k = 0)) :=
  (BitVec.getLsbD_eq_getElem hk).symm.trans (f.getLsbD_toWord k)

/-- The bits that FLAG's layout `0000 0000 EPI0 VCSZ` draws as 0 read 0 (10_state.md R29). -/
theorem Flags.getLsbD_toWord_undrawn (f : Flags) {k : Nat} (hk : 8 ≤ k ∨ k = 4) : f.toWord.getLsbD k = false := by
  have hne : k ≠ 7 ∧ k ≠ 6 ∧ k ≠ 5 ∧ k ≠ 3 ∧ k ≠ 2 ∧ k ≠ 1 ∧ k ≠ 0 := by omega
  simp [Flags.getLsbD_toWord, hne]

/-- The seven bits FLAG takes from a word, as a word again (10_state.md R33). -/
theorem Flags.toWord_ofWord (v : Word) : (Flags.ofWord v).toWord = v &&& 0x00EF := by
  apply BitVec.eq_of_getElem_eq
  intro k hk
  interval_cases k <;> simp [Flags.getElem_toWord, Flags.ofWord]

theorem Flags.write_priv {f : Flags} (h : f.p = true) (v : Word) : f.write v = Flags.ofWord v := by
  simp [Flags.write, h]

/-- A write in user mode keeps E, P and I and takes V, C, S and Z from the word (10_state.md R33). -/
theorem Flags.toWord_write_user {f : Flags} (h : f.p = false) (v : Word) :
    (f.write v).toWord = (f.toWord &&& 0x00E0) ||| (v &&& 0x000F) := by
  apply BitVec.eq_of_getElem_eq
  intro k hk
  interval_cases k <;> simp [Flags.getElem_toWord, Flags.write, Flags.ofWord, h]

end Sys2Proof.Machine
end

section
/-! SUPPORT. The cells of the byte store after a write, the invariant of every step by its parts, and what a reset of
a running machine leaves (10_state.md R43). -/

namespace Sys2Proof.Machine

/-! ## The cells of the byte store -/

theorem Memory.mem_of_mem_erase {m : Memory} {a : Nat} {c : Host.Cell} (h : c ∈ Memory.erase a m) : c ∈ m := by
  induction m with
  | nil => exact h
  | cons d rest ih =>
    obtain ⟨k, b⟩ := d
    by_cases hk : k = a
    · exact List.mem_cons_of_mem _ (ih (by simpa [Memory.erase, hk] using h))
    · rcases List.mem_cons.mp (by simpa [Memory.erase, hk] using h) with rfl | hr
      · exact List.mem_cons_self
      · exact List.mem_cons_of_mem _ (ih hr)

theorem Memory.eq_or_mem_of_mem_insert {m : Memory} {a : Nat} {v : Byte} {c : Host.Cell}
    (h : c ∈ Memory.insert a v m) : c = (a, v) ∨ c ∈ m := by
  induction m with
  | nil => simpa [Memory.insert] using h
  | cons d rest ih =>
    obtain ⟨k, b⟩ := d
    by_cases hlt : a < k
    · simpa [Memory.insert, hlt] using h
    · rcases List.mem_cons.mp (by simpa [Memory.insert, hlt] using h) with rfl | hr
      · exact .inr List.mem_cons_self
      · exact (ih hr).imp_right (List.mem_cons_of_mem _)

/-- A write lists no cell but its own and those listed before. -/
theorem Memory.eq_or_mem_of_mem_write {m : Memory} {a : Nat} {v : Byte} {c : Host.Cell}
    (h : c ∈ Memory.write m a v) : c = (a, v) ∨ c ∈ m := by
  unfold Memory.write at h
  split at h
  · exact .inr (Memory.mem_of_mem_erase h)
  · exact (Memory.eq_or_mem_of_mem_insert h).imp_right Memory.mem_of_mem_erase

/-! ## The invariant of every step -/

/-- The output registers hold only bits their ports' layouts draw. -/
def LatchDrawn (m : Memory) : Prop := ∀ c ∈ m, c.2 &&& ~~~ writeMask c.1 = 0

theorem stateInv_iff (s : State) :
    stateInv s = true ↔
      Memory.wf 65536 s.mem = true ∧ Memory.wf 256 s.io.latch = true ∧ LatchDrawn s.io.latch := by
  simp [stateInv, LatchDrawn, and_assoc]

theorem LatchDrawn.write {m : Memory} (h : LatchDrawn m) {a : Nat} {v : Byte} (hv : v &&& ~~~ writeMask a = 0) :
    LatchDrawn (Memory.write m a v) := by
  intro c hc
  rcases Memory.eq_or_mem_of_mem_write hc with rfl | hm
  · exact hv
  · exact h c hm

theorem latchDrawn_reset : LatchDrawn Io.reset.latch := by
  intro c hc
  obtain rfl : c = (0x2D, 1) := by simpa [Io.reset] using hc
  decide

/-! ## A reset of a running machine -/

/-- The output registers after a reset: RN4020-RAM (port 2Fh) as it was, every other as in `Io.reset`
(10_state.md R43). -/
theorem State.read_warmReset_latch (s : State) (a : Nat) :
    Memory.read (State.warmReset s).io.latch a =
      if a = 0x2F then Memory.read s.io.latch 0x2F else Memory.read Io.reset.latch a :=
  Memory.read_write Io.reset.latch 0x2F (Memory.read s.io.latch 0x2F) a

/-- A reset of any machine meets the invariant: RN4020-RAM draws all eight bits, so its old value may stay. -/
theorem stateInv_warmReset (s : State) : stateInv (State.warmReset s) = true := by
  rw [stateInv_iff]
  have hram : ∀ v : Byte, v &&& ~~~ writeMask 0x2F = 0 := by simp [writeMask]
  exact ⟨State.reset_mem_wf, Memory.wf_write _ (by omega) State.reset_latch_wf, latchDrawn_reset.write (hram _)⟩

/-- A machine whose timer 0 has a period of 10: the low byte of port 00h holds 0Ah (60_exceptions.md R232). -/
def timerLoaded : State :=
  State.reset.setIo { Io.reset with latch := Memory.write Io.reset.latch 0x01 0x0A }

/-- Reset sets timer 0's period back to 0. -/
theorem warmReset_clears_timer :
    Memory.read (State.warmReset timerLoaded).io.latch 0x01 ≠ Memory.read timerLoaded.io.latch 0x01 := by
  have hafter : Memory.read (State.warmReset timerLoaded).io.latch 0x01 = 0 := State.read_warmReset_latch _ _
  have hbefore : Memory.read timerLoaded.io.latch 0x01 = 0x0A := Memory.read_write_same Io.reset.latch 0x01 0x0A
  rw [hafter, hbefore]
  decide

end Sys2Proof.Machine
end

section
/-! Reset, registers and FLAG: the statements about 10_state.md. -/

namespace Sys2Proof.Machine

/-- Settles O1; the register that reset changes is timer 0's period in `timerLoaded`. -/
theorem resetLeavesWhatTheSheetStates : Obligations.ResetLeavesWhatTheSheetStates := by
  have hcmd : ∀ s, Io.rn4020Cmd (State.warmReset s).io = 1 := fun s => State.read_warmReset_latch s 0x2D
  have hram : ∀ s, Io.rn4020Ram (State.warmReset s).io = Io.rn4020Ram s.io := fun s =>
    State.read_warmReset_latch s 0x2F
  exact ⟨rfl, rfl, fun s => ⟨rfl, hcmd s, hram s⟩, timerLoaded, 0x01, by decide, warmReset_clears_timer⟩

/-- Settles O2; the output registers are `State.read_warmReset_latch`, the invariant `stateInv_warmReset`. -/
theorem warmResetIsResetButForRam : Obligations.WarmResetIsResetButForRam := by
  intro s
  have hlatch : ∀ a, a ≠ 0x2F →
      Memory.read (State.warmReset s).io.latch a = Memory.read State.reset.io.latch a := fun a ha => by
    rw [State.read_warmReset_latch, if_neg ha]
    rfl
  exact ⟨rfl, rfl, hlatch, rfl, rfl, rfl, stateInv_warmReset s⟩

/-- Settles O3, by the parts of the invariant. -/
theorem resetMeetsTheStepInvariant : Obligations.ResetMeetsTheStepInvariant :=
  (stateInv_iff State.reset).mpr ⟨State.reset_mem_wf, State.reset_latch_wf, latchDrawn_reset⟩

/-- Settles O9, number by number; FLAG's bits are `Flags.getLsbD_toWord`. -/
theorem registerNumbersReadTheirRegisters : Obligations.RegisterNumbersReadTheirRegisters := by
  intro s i v
  refine ⟨fun h => ?g, ?fp, ?sp, ?usp, ?flag, Reg.toField_ofField i⟩
  case g => simp only [v, Reg.ofField_of_lt h]; rfl
  case fp => rintro rfl; rfl
  case sp => rintro rfl; rfl
  case usp => rintro rfl; rfl
  case flag =>
    rintro rfl
    have hv : v = s.flag.toWord := rfl
    exact ⟨fun k hk => hv ▸ s.flag.getLsbD_toWord_undrawn hk, by simp [hv, Flags.getElem_toWord]⟩

/-- Settles O10, number by number. -/
theorem registerNumbersWriteTheirRegisters : Obligations.RegisterNumbersWriteTheirRegisters := by
  intro s i v t
  refine ⟨fun h => ?g, ?fp, ?sp, ?usp, ?flag⟩
  case g => simp only [t, Reg.ofField_of_lt h]; rfl
  case fp => rintro rfl; rfl
  case sp => rintro rfl; rfl
  case usp => rintro rfl; rfl
  case flag => rintro rfl; rfl

/-- Settles O11, by the mode that P selects. -/
theorem flagWritesAreFiltered : Obligations.FlagWritesAreFiltered := by
  intro f v
  constructor
  · intro hp
    rw [Flags.write_priv hp, Flags.toWord_ofWord]
  · intro hp
    exact Flags.toWord_write_user hp v

end Sys2Proof.Machine
end

section
/-! SUPPORT. What each operation, each instruction and each step does to the invariant of every step: it rests on the
memory and the output registers alone, and every write of a byte keeps it. -/

namespace Sys2Proof.Machine

/-! ## What the invariant looks at -/

/-- The invariant of a state whose output registers are those of one that meets it. -/
theorem stateInv_of_mem_wf {s t : State} (hs : stateInv s = true) (hm : Memory.wf 65536 t.mem = true)
    (hl : t.io.latch = s.io.latch) : stateInv t = true := by
  obtain ⟨-, hwf, hdrawn⟩ := (stateInv_iff s).mp hs
  exact (stateInv_iff t).mpr ⟨hm, hl ▸ hwf, hl ▸ hdrawn⟩

theorem mem_wf_of_stateInv {s : State} (hs : stateInv s = true) : Memory.wf 65536 s.mem = true :=
  ((stateInv_iff s).mp hs).1

theorem stateInv_congr {s t : State} (hm : t.mem = s.mem) (hl : t.io.latch = s.io.latch) :
    stateInv t = stateInv s := by
  simp [stateInv, hm, hl]

@[simp] theorem stateInv_setPc (s : State) (v : Word) : stateInv (s.setPc v) = stateInv s := rfl

@[simp] theorem stateInv_setFlag (s : State) (f : Flags) : stateInv (s.setFlag f) = stateInv s := rfl

@[simp] theorem stateInv_setHalted (s : State) (b : Bool) : stateInv (s.setHalted b) = stateInv s := rfl

@[simp] theorem stateInv_setMmu (s : State) (m : Mmu) : stateInv (s.setMmu m) = stateInv s := rfl

@[simp] theorem stateInv_setDraws (s : State) (n : Nat) : stateInv (s.setDraws n) = stateInv s := rfl

/-- The record of accesses is no part of the invariant. -/
@[simp] theorem stateInv_logIo (ev : IoEvent) (s : State) : stateInv (logIo ev s) = stateInv s := rfl

@[simp] theorem stateInv_writeReg (r : Reg) (v : Word) (s : State) : stateInv (writeReg r v s) = stateInv s := by
  obtain ⟨hmem, -, hio, -⟩ := writeReg_keeps r v s
  exact stateInv_congr hmem (congrArg Io.latch hio)

@[simp] theorem stateInv_recordCause (k : Exc) (s : State) : stateInv (recordCause k s) = stateInv s := by
  rw [(recordCause_eq k s).1, stateInv_setMmu]

@[simp] theorem stateInv_aluApply (op : AluOp) (rd : Reg) (b : Word) (s : State) :
    stateInv (aluApply op rd b s) = stateInv s := by
  unfold aluApply
  split <;> simp

/-! ## Memory and the stack -/

/-- A store at an aligned address keeps the invariant: both its bytes lie below 65536. -/
theorem stateInv_storeBytes {w : Width} {a : Word} (v : Word) {s : State} (ho : w = .word → isOdd a = false)
    (hs : stateInv s = true) : stateInv (s.setMem (storeBytes w a.toNat v s.mem)) = true :=
  stateInv_of_mem_wf hs (wf_storeBytes v ho (mem_wf_of_stateInv hs)) rfl

theorem stateInv_push {v : Word} {s t : State} (hs : stateInv s = true) (h : push v s = .ok t) :
    stateInv t = true := by
  obtain ⟨ho, -, -, rfl⟩ := (push_ok_iff v s t).mp h
  rw [stateInv_writeReg]
  exact stateInv_storeBytes v (fun _ => (isOdd_sub_two _).trans ho) hs

theorem stateInv_pop {v : Word} {s t : State} (hs : stateInv s = true) (h : pop s = .ok (v, t)) :
    stateInv t = true := by
  obtain ⟨-, -, -, rfl⟩ := (pop_ok_iff s v t).mp h
  rwa [stateInv_writeReg]

/-! ## Traps -/

theorem stateInv_trapEntry {vec spc : Word} {s t : State} (hs : stateInv s = true)
    (h : trapEntry vec spc s = .ok t) : stateInv t = true := by
  obtain ⟨ho, -, -, -, -, rfl⟩ := (trapEntry_ok_iff vec spc s t).mp h
  have ho1 : isOdd (s.ssp - 2) = false := (isOdd_sub_two _).trans ho
  have ho2 : isOdd (s.ssp - 2 - 2) = false := (isOdd_sub_two _).trans ho1
  have hframe : Memory.wf 65536 (trapFrame spc s) = true :=
    wf_storeBytes _ (fun _ => ho2) (wf_storeBytes spc (fun _ => ho1) (mem_wf_of_stateInv hs))
  exact stateInv_of_mem_wf hs hframe rfl

theorem stateInv_takeException {k : Exc} {next : Word} {s t : State} (hs : stateInv s = true)
    (h : takeException k next s = .next t) : stateInv t = true :=
  stateInv_trapEntry ((stateInv_recordCause k s).trans hs) ((takeException_next_iff k next s t).mp h)

theorem stateInv_takeInterrupt {k : Fin 10} {s t : State} (hs : stateInv s = true)
    (h : takeInterrupt k s = .next t) : stateInv t = true :=
  stateInv_trapEntry ((stateInv_setMmu s s.mmu).trans hs) ((takeInterrupt_next_iff k s t).mp h)

/-- An instruction keeps the invariant when its body does: the exception it may take instead starts from `s`. -/
theorem stateInv_settle {next : Word} {r : Except Stop State} {s t : State} (hs : stateInv s = true)
    (hbody : ∀ u, r = .ok u → stateInv u = true) (h : settle s next r = .next t) : stateInv t = true := by
  rcases (settle_next_iff s next r t).mp h with hok | ⟨k, -, htrap⟩
  · exact hbody t hok
  · exact stateInv_takeException hs htrap

/-! ## Output registers -/

/-- An access that has a meaning has all its bytes at I/O addresses up to 00FFh (20_memory.md R58, R59). -/
theorem ioRefusal_eq_none_iff (w : Width) (a : Word) :
    ioRefusal w a = none ↔ a.toNat ≤ 255 ∧ (w = .word → isOdd a = false) := by
  unfold ioRefusal
  by_cases ha : 255 < a.toNat
  · simp [ha]
  · cases w <;> simp [ha] <;> omega

/-- The last byte of a word at an even I/O address lies in the I/O space too. -/
theorem succ_lt_of_even {a : Word} (ha : a.toNat ≤ 255) (ho : isOdd a = false) : a.toNat + 1 < 256 := by
  have heven := toNat_odd ho
  omega

/-- A port's output register takes no bit its layout does not draw. -/
theorem stateInv_portWrite {a : Nat} {v : Byte} {s t : State} (ha : a < 256) (hs : stateInv s = true)
    (h : portWrite a v s = .ok t) : stateInv t = true := by
  obtain ⟨-, rfl⟩ := (portWrite_ok_iff a v s t).mp h
  split
  · exact hs
  · obtain ⟨hmem, hwf, hdrawn⟩ := (stateInv_iff s).mp hs
    have hmask : v &&& writeMask a &&& ~~~ writeMask a = 0 := by simp [BitVec.and_assoc]
    exact (stateInv_iff _).mpr ⟨hmem, Memory.wf_write _ ha hwf, hdrawn.write hmask⟩

theorem stateInv_ioWriteBytes {w : Width} {a v : Word} {s t : State} (ha : ioRefusal w a = none)
    (hs : stateInv s = true) (h : ioWriteBytes w a v s = .ok t) : stateInv t = true := by
  obtain ⟨hle, heven⟩ := (ioRefusal_eq_none_iff w a).mp ha
  cases w with
  | byte => exact stateInv_portWrite (by omega) hs h
  | word =>
    simp only [ioWriteBytes] at h
    split at h
    case h_1 => cases h
    case h_2 s1 h1 =>
      have hs1 := stateInv_portWrite (by omega) hs h1
      split at h
      case h_1 => cases h
      case h_2 s2 h2 =>
        have hs2 := stateInv_portWrite (succ_lt_of_even hle (heven rfl)) hs1 h2
        cases h
        split <;> simpa using hs2

/-! ## Instructions and steps -/

/-- Every instruction keeps the invariant, shape by shape. -/
theorem stateInv_performForm {f : Form} {s t : State} (hs : stateInv s = true) (h : performForm f s = .next t) :
    stateInv t = true := by
  cases f with
  | no => cases h; simpa using hs
  | ld rd x =>
    refine stateInv_settle hs (fun u hu => ?_) h
    obtain ⟨v, -, rfl⟩ := (loadBody_ok_iff rd x s u).mp hu
    simpa using hs
  | st rd x =>
    refine stateInv_settle hs (fun u hu => ?_) h
    obtain ⟨ho, -, -, rfl⟩ := (storeBody_ok_iff rd x s u).mp hu
    simpa using stateInv_storeBytes _ ho hs
  | alu op rd x =>
    refine stateInv_settle hs (fun u hu => ?_) h
    obtain ⟨-, b, -, -, rfl⟩ := (aluBody_ok_iff op rd x s u).mp hu
    simpa using hs
  | jump cond x => cases h; simpa using hs
  | call x =>
    refine stateInv_settle hs (fun u hu => ?_) h
    obtain ⟨p, hp, rfl⟩ := (callBody_ok_iff x s u).mp hu
    simpa using stateInv_push hs hp
  | inp rd x =>
    refine stateInv_settle hs (fun u hu => ?_) h
    obtain ⟨-, -, rfl⟩ := (inputBody_ok_iff rd x s u).mp hu
    simpa using hs
  | out rd x =>
    refine stateInv_settle hs (fun u hu => ?_) h
    obtain ⟨-, ha, p, hp, rfl⟩ := (outputBody_ok_iff rd x s u).mp hu
    simpa using stateInv_ioWriteBytes ha hs hp
  | push rd =>
    refine stateInv_settle hs (fun u hu => ?_) h
    obtain ⟨-, p, hp, rfl⟩ := (pushBody_ok_iff rd s u).mp hu
    simpa using stateInv_push hs hp
  | pop rd =>
    refine stateInv_settle hs (fun u hu => ?_) h
    obtain ⟨-, v, p, hp, rfl⟩ := (popBody_ok_iff rd s u).mp hu
    simpa using stateInv_pop hs hp
  | ret =>
    refine stateInv_settle hs (fun u hu => ?_) h
    obtain ⟨v, p, hp, rfl⟩ := (retBody_ok_iff s u).mp hu
    simpa using stateInv_pop hs hp
  | reti =>
    refine stateInv_settle hs (fun u hu => ?_) h
    obtain ⟨-, -, rfl⟩ := (reti_ok_iff s u).mp hu
    simpa using hs
  | svc => exact stateInv_takeException hs h
  | halt =>
    simp only [performForm, halt] at h
    split at h
    · cases h; simpa using hs
    · exact stateInv_takeException hs h

theorem stateInv_runInstr {s t : State} (hs : stateInv s = true) (h : runInstr s = .next t) : stateInv t = true := by
  unfold runInstr at h
  split at h
  case h_1 i _ => exact stateInv_performForm hs (exec_eq_performForm i s ▸ h)
  case h_2 e _ => exact stateInv_settle hs (fun u hu => by cases hu) h

/-- The SD controller's writes keep the invariant, whatever the oracle writes (20_memory.md R72). -/
theorem stateInv_endStep {s : State} (hs : stateInv s = true) : stateInv (endStep s) = true := by
  unfold endStep busWrites
  split
  · exact stateInv_of_mem_wf hs (Memory.wf_writes (mem_wf_of_stateInv hs)) rfl
  · exact hs

/-- A running machine with the MMU off ends an interrupt's entry, where one is accepted, or else an instruction; no
other step answers a state (20_memory.md R62, 46_system.md R196, 60_exceptions.md R211). -/
theorem step_next_iff (s t : State) :
    step s = .next t ↔ s.halted = false ∧ mmuOn s = false ∧ ∃ u, t = endStep u ∧
      ((∃ k, acceptedInterrupt s = some k ∧ takeInterrupt k s = .next u) ∨
        (acceptedInterrupt s = none ∧ runInstr s = .next u)) := by
  unfold step
  cases hh : s.halted <;> cases hm : mmuOn s <;> simp only [Bool.false_eq_true, if_true, if_false]
  case false.false => cases ha : acceptedInterrupt s <;> simp [finishStep_next_iff, and_comm]
  all_goals simp

end Sys2Proof.Machine
end

section
/-! SUPPORT. Where a memory access stops and with what, what it answers where it does not, and where the IPL ROM is seen
(20_memory.md R52 to R61). -/

namespace Sys2Proof.Machine

/-! ## Memory accesses -/

theorem memRead_odd {a : Word} (ho : isOdd a = true) (s : State) : memRead .word a s = .error oddAccess := by
  simp [memRead, ho]

theorem memWrite_odd {a : Word} (ho : isOdd a = true) (v : Word) (s : State) :
    memWrite .word a v s = .error oddAccess := by
  simp [memWrite, ho]

theorem memRead_aligned {w : Width} {a : Word} {s : State} (ho : w = .word → isOdd a = false)
    (hm : mmuOn s = false) : memRead w a s = .ok (loadBytes w a.toNat s) :=
  (memRead_ok_iff w a s _).mpr ⟨ho, hm, rfl⟩

theorem memWrite_aligned {w : Width} {a : Word} {s : State} (v : Word) (ho : w = .word → isOdd a = false)
    (hm : mmuOn s = false) (hr : romTouched w a.toNat s = false) :
    memWrite w a v s = .ok (s.setMem (storeBytes w a.toNat v s.mem)) :=
  (memWrite_ok_iff w a v s _).mpr ⟨ho, hm, hr, rfl⟩

/-- A write that reaches the attached IPL ROM is refused (20_memory.md R61). -/
theorem memWrite_rom {w : Width} {a : Word} {s : State} (v : Word) (ho : w = .word → isOdd a = false)
    (hm : mmuOn s = false) (hr : romTouched w a.toNat s = true) : memWrite w a v s = .error (.refuse .romWrite) := by
  have hodd : ¬(w = .word ∧ isOdd a = true) := fun h => by simp [ho h.1] at h
  simp [memWrite, translate, hodd, hm, hr]

/-- A byte access never raises an exception, at any address and with the MMU on or off (20_memory.md R55). -/
theorem memRead_byte_no_exc (a : Word) (s : State) (k : Exc) : memRead .byte a s ≠ .error (.exc k) := by
  cases hm : mmuOn s <;> simp [memRead, translate, hm]

theorem memWrite_byte_no_exc (a v : Word) (s : State) (k : Exc) : memWrite .byte a v s ≠ .error (.exc k) := by
  cases hm : mmuOn s <;> cases hr : romTouched .byte a.toNat s <;> simp [memWrite, translate, hm, hr]

/-! ## The IPL ROM -/

theorem romAt_iff (s : State) (a : Nat) :
    romAt s a = true ↔ s.mmu.iplDetached = false ∧ Config.romBase ≤ a ∧ a < Config.romLimit := by
  simp [romAt, and_assoc]

theorem byteAt_of_romAt {s : State} {a : Nat} (h : romAt s a = true) : byteAt s a = Config.iplRom a := by
  simp [byteAt, h]

theorem byteAt_of_not_romAt {s : State} {a : Nat} (h : romAt s a = false) : byteAt s a = Memory.read s.mem a := by
  simp [byteAt, h]

theorem romAt_detached {s : State} (h : s.mmu.iplDetached = true) (a : Nat) : romAt s a = false := by
  simp [romAt, h]

theorem romTouched_byte (s : State) (a : Nat) : romTouched .byte a s = romAt s a := by
  simp [romTouched]

/-- A word access reaches the ROM when either of its bytes lies in it (20_memory.md R61). -/
theorem romTouched_word_of_romAt {s : State} {a x : Nat} (hx : x = a ∨ x = a + 1) (h : romAt s x = true) :
    romTouched .word a s = true := by
  rcases hx with rfl | rfl <;> simp [romTouched, h]

end Sys2Proof.Machine
end

section
/-! SUPPORT. A word access at an odd address stops an instruction with the memory violation, and what becomes of it
(20_memory.md R54, R56, 60_exceptions.md R203, R219). -/

namespace Sys2Proof.Machine

/-! ## The stack pointer odd -/

theorem push_odd {s : State} (ho : isOdd (readReg .sp s) = true) (v : Word) : push v s = .error oddAccess := by
  have hslot : memWrite .word (readReg .sp s - 2) v s = .error oddAccess :=
    memWrite_odd ((isOdd_sub_two _).trans ho) v s
  simp only [push, hslot]

theorem pop_odd {s : State} (ho : isOdd (readReg .sp s) = true) : pop s = .error oddAccess := by
  simp [pop, memRead_odd ho]

/-- The exception that trap entry itself would raise on an odd SSP has no meaning (60_exceptions.md R219). -/
theorem trapEntry_odd {s : State} (ho : isOdd s.ssp = true) (vec spc : Word) :
    trapEntry vec spc s = .error .trapEntryFault := by
  have hsp : isOdd (readReg .sp (s.setFlag s.flag.entered)) = true := ho
  simp [trapEntry, push_odd hsp, trapStop, oddAccess]

/-! ## What the violation leads to -/

/-- With a usable system stack the violation is taken, R = 0 recorded (60_exceptions.md R203). -/
theorem settle_oddAccess_traps {s : State} (h : trapReady s = true) (next : Word) :
    Traps (settle s next (.error oddAccess)) 10 s.pc next (oddCause s) s :=
  takeException_traps h (.memoryViolation .oddAddress) next

theorem settle_oddAccess_refused {s : State} (ho : isOdd s.ssp = true) (next : Word) :
    settle s next (.error oddAccess) = .refused .trapEntryFault := by
  have hssp : isOdd (recordCause (.memoryViolation .oddAddress) s).ssp = true := ho
  simp [oddAccess, takeException, enter, trapEntry_odd hssp]

/-! ## The instructions that stop there -/

section OddOperand

variable {x : MemEa} {s : State} (hw : memWidth x = .word) (ho : isOdd (memAddr x s) = true)

include hw ho

theorem operandValue_odd : operandValue (.mem x) s = .error oddAccess := by
  rw [operandValue_mem, hw, memRead_odd ho]

theorem load_odd (rd : Reg) : load rd (.mem x) s = settle s (s.pc + memBytes x) (.error oddAccess) := by
  simp only [load, loadBody, operandValue_odd hw ho]
  rfl

theorem store_odd (rd : Reg) : store rd x s = settle s (s.pc + memBytes x) (.error oddAccess) := by
  simp only [store, storeBody, hw, memWrite_odd ho]

theorem alu_odd {op : AluOp} {rd : Reg} (hrd : ¬(writesRd op = true ∧ rd = .flag)) :
    alu op rd (.mem x) s = settle s (s.pc + memBytes x) (.error oddAccess) := by
  simp only [alu, aluBody, if_neg hrd, operandValue_odd hw ho]
  rfl

end OddOperand

section OddStackPointer

variable {s : State} (ho : isOdd (readReg .sp s) = true)

include ho

theorem pushReg_odd {rd : Reg} (hn : namesStackPointer rd s = false) :
    pushReg rd s = settle s (s.pc + 2) (.error oddAccess) := by
  simp [pushReg, pushBody, hn, push_odd ho]

theorem popReg_odd {rd : Reg} (hn : namesStackPointer rd s = false) :
    popReg rd s = settle s (s.pc + 2) (.error oddAccess) := by
  simp [popReg, popBody, hn, pop_odd ho]

theorem call_odd (x : JumpEa) : call x s = settle s (s.pc + 4) (.error oddAccess) := by
  simp [call, callBody, push_odd ho]

theorem returnFromCall_odd : returnFromCall s = settle s (s.pc + 2) (.error oddAccess) := by
  simp [returnFromCall, retBody, pop_odd ho]

theorem returnFromTrap_odd : returnFromTrap s = settle s (s.pc + 2) (.error oddAccess) := by
  simp [returnFromTrap, reti, pop_odd ho]

end OddStackPointer

/-- A fetch at an odd address stops before anything is decoded (20_memory.md R56). -/
theorem runInstr_odd {s : State} (ho : isOdd s.pc = true) :
    runInstr s = settle s (s.pc + 2) (.error oddAccess) := by
  simp [runInstr, fetch, memRead_odd ho]

end Sys2Proof.Machine
end

section
/-! SUPPORT. What IN and OUT answer, and what a write to the ports F0h to F7h puts into the MMU's registers
(20_memory.md R58 to R67, 44_io.md R180 to R183). -/

namespace Sys2Proof.Machine

/-! ## Where IN and OUT stop, and where they go on -/

theorem ioRefusal_above {a : Word} (h : 255 < a.toNat) (w : Width) : ioRefusal w a = some .ioAddressAboveFF := by
  simp [ioRefusal, h]

theorem ioRefusal_word_odd {a : Word} (h : a.toNat ≤ 255) (ho : isOdd a = true) :
    ioRefusal .word a = some .ioWordAtOddAddress := by
  simp [ioRefusal, ho, Nat.not_lt.mpr h]

theorem input_refused {rd : Reg} {x : IoEa} {s : State} {r : Refusal} (hp : ioAllowed s = true)
    (hr : ioRefusal (ioWidth x) (ioAddr x s) = some r) : input rd x s = .refused r := by
  simp [input, inputBody, hp, hr]

theorem output_refused {rd : Reg} {x : IoEa} {s : State} {r : Refusal} (hp : ioAllowed s = true)
    (hr : ioRefusal (ioWidth x) (ioAddr x s) = some r) : output rd x s = .refused r := by
  simp [output, outputBody, hp, hr]

theorem ioReady_iff (x : IoEa) (s : State) :
    ioReady x s = true ↔ ioAllowed s = true ∧ ioRefusal (ioWidth x) (ioAddr x s) = none := by
  rw [ioRefusal_eq_none_iff]
  cases hw : ioWidth x <;> simp [ioReady, hw, and_assoc]

/-- The state after an OUT whose write left `u`: the write joins the record and PC advances (44_io.md R182). -/
def outDone (rd : Reg) (x : IoEa) (s u : State) : State :=
  (logIo (.write (ioWidth x) (ioAddr x s) (outValue (ioWidth x) (readReg rd s))) u).setPc (s.pc + ioBytes x)

@[simp] theorem outDone_mem (rd : Reg) (x : IoEa) (s u : State) : (outDone rd x s u).mem = u.mem := rfl

@[simp] theorem outDone_mmu (rd : Reg) (x : IoEa) (s u : State) : (outDone rd x s u).mmu = u.mmu := rfl

theorem output_written {rd : Reg} {x : IoEa} {s u : State} (h : ioReady x s = true)
    (hu : ioWriteBytes (ioWidth x) (ioAddr x s) (readReg rd s) s = .ok u) :
    output rd x s = .next (outDone rd x s u) := by
  obtain ⟨hp, hr⟩ := (ioReady_iff x s).mp h
  simp [output, outputBody, hp, hr, hu, outDone]

theorem output_write_refused {rd : Reg} {x : IoEa} {s : State} {r : Refusal} (h : ioReady x s = true)
    (hu : ioWriteBytes (ioWidth x) (ioAddr x s) (readReg rd s) s = .error (.refuse r)) :
    output rd x s = .refused r := by
  obtain ⟨hp, hr⟩ := (ioReady_iff x s).mp h
  simp [output, outputBody, hp, hr, hu]

/-! ## The MMU's registers after a write -/

/-- A write outside the ports F0h to F7h reaches no MMU register. -/
theorem mmuWrite_outside {a : Nat} (h : ¬(0xF0 ≤ a ∧ a ≤ 0xF7)) (v : Byte) (m : Mmu) : mmuWrite a v m = m := by
  unfold mmuWrite
  split
  case h_7 => rfl
  all_goals exact absurd ⟨by decide, by decide⟩ h

theorem portWrite_mmu {a : Nat} {v : Byte} {s t : State} (h : portWrite a v s = .ok t) :
    t.mmu = mmuWrite a v s.mmu := by
  obtain ⟨-, rfl⟩ := (portWrite_ok_iff a v s t).mp h
  split
  case isTrue => rfl
  case isFalse hout => exact (mmuWrite_outside hout v s.mmu).symm

/-- The MMU's registers after an I/O write: byte by byte, and the TLB entry of a word at F6h (20_memory.md R59, R66). -/
def mmuAfter (w : Width) (a v : Word) (m : Mmu) : Mmu :=
  match w with
  | .word =>
    let n := mmuWrite (a.toNat + 1) (loByte v) (mmuWrite a.toNat (hiByte v) m)
    if a = 0xF6 then loadTlb v n else n
  | .byte => mmuWrite a.toNat (loByte v) m

theorem ioWriteBytes_mmu {w : Width} {a v : Word} {s t : State} (h : ioWriteBytes w a v s = .ok t) :
    t.mmu = mmuAfter w a v s.mmu := by
  cases w with
  | byte => exact portWrite_mmu h
  | word =>
    simp only [ioWriteBytes] at h
    split at h
    case h_1 => cases h
    case h_2 s1 h1 =>
      split at h
      case h_1 => cases h
      case h_2 s2 h2 =>
        have hmmu : s2.mmu = mmuWrite (a.toNat + 1) (loByte v) (mmuWrite a.toNat (hiByte v) s.mmu) := by
          rw [portWrite_mmu h2, portWrite_mmu h1]
        cases h
        simp only [mmuAfter, ← hmmu]
        split <;> rfl

/-! ## Re-attaching the IPL ROM -/

theorem loByte_bit0 (v : Word) : (loByte v).getLsbD 0 = v.getLsbD 0 := by
  simp [loByte]

theorem loByte_bit1 (v : Word) : (loByte v).getLsbD 1 = v.getLsbD 1 := by
  simp [loByte]

theorem portWrite_reattach {v : Byte} {s : State} (hd : s.mmu.iplDetached = true) (hv : v.getLsbD 0 = false) :
    portWrite 0xF1 v s = .error (.refuse .romReattach) := by
  simp only [portWrite, hd, hv, and_self, if_true]

theorem portWrite_completes {a : Nat} {v : Byte} {s : State}
    (h : ¬(a = 0xF1 ∧ s.mmu.iplDetached = true ∧ v.getLsbD 0 = false)) : ∃ t, portWrite a v s = .ok t :=
  ⟨_, (portWrite_ok_iff a v s _).mpr ⟨h, rfl⟩⟩

/-- An OUT clears the detach bit through a word at F0h or a byte at F1h (20_memory.md R61). -/
theorem reattaches_iff (x : IoEa) (v : Word) (s : State) :
    reattaches x v s = true ↔ s.mmu.iplDetached = true ∧ v.getLsbD 0 = false ∧
      (ioWidth x = .word ∧ ioAddr x s = 0xF0 ∨ ioWidth x = .byte ∧ ioAddr x s = 0xF1) := by
  cases hw : ioWidth x <;> simp [reattaches, hw, and_assoc]

theorem ioWriteBytes_word_ok {a v : Word} {s s1 s2 : State} (h1 : portWrite a.toNat (hiByte v) s = .ok s1)
    (h2 : portWrite (a.toNat + 1) (loByte v) s1 = .ok s2) :
    ioWriteBytes .word a v s = .ok (if a = 0xF6 then s2.setMmu (loadTlb v s2.mmu) else s2) := by
  simp only [ioWriteBytes, h1, h2]

theorem ioWriteBytes_word_error {a v : Word} {s s1 : State} {e : Stop}
    (h1 : portWrite a.toNat (hiByte v) s = .ok s1) (h2 : portWrite (a.toNat + 1) (loByte v) s1 = .error e) :
    ioWriteBytes .word a v s = .error e := by
  simp only [ioWriteBytes, h1, h2]

/-- An OUT that clears the detach bit stops at the byte F1h, which is the second one of a word (20_memory.md R61). -/
theorem ioWriteBytes_reattach {x : IoEa} {v : Word} {s : State} (h : reattaches x v s = true) :
    ioWriteBytes (ioWidth x) (ioAddr x s) v s = .error (.refuse .romReattach) := by
  obtain ⟨hd, hv, ⟨hw, ha⟩ | ⟨hw, ha⟩⟩ := (reattaches_iff x v s).mp h
  · have hfirst : portWrite (0xF0 : Word).toNat (hiByte v) s = .ok (s.setMmu s.mmu) := rfl
    rw [hw, ha]
    exact ioWriteBytes_word_error hfirst (portWrite_reattach hd ((loByte_bit0 v).trans hv))
  · rw [hw, ha]
    exact portWrite_reattach hd ((loByte_bit0 v).trans hv)

/-- Every other OUT to an address with a meaning completes its write. -/
theorem ioWriteBytes_completes {x : IoEa} {v : Word} {s : State} (hready : ioReady x s = true)
    (h : reattaches x v s = false) : ∃ u, ioWriteBytes (ioWidth x) (ioAddr x s) v s = .ok u := by
  obtain ⟨-, hr⟩ := (ioReady_iff x s).mp hready
  obtain ⟨-, heven⟩ := (ioRefusal_eq_none_iff _ _).mp hr
  have hkeeps := mt (reattaches_iff x v s).mpr (Bool.eq_false_iff.mp h)
  cases hw : ioWidth x with
  | byte =>
    refine portWrite_completes fun ⟨ha, hd, hv⟩ => hkeeps ⟨hd, (loByte_bit0 v).symm.trans hv, .inr ⟨hw, ?_⟩⟩
    exact BitVec.eq_of_toNat_eq ha
  | word =>
    have ha := toNat_odd (heven hw)
    obtain ⟨s1, h1⟩ : ∃ s1, portWrite (ioAddr x s).toNat (hiByte v) s = .ok s1 :=
      portWrite_completes fun ⟨ha1, _⟩ => by omega
    obtain ⟨s2, h2⟩ : ∃ s2, portWrite ((ioAddr x s).toNat + 1) (loByte v) s1 = .ok s2 := by
      refine portWrite_completes fun ⟨ha2, hd, hv⟩ => hkeeps ⟨?_, (loByte_bit0 v).symm.trans hv, .inl ⟨hw, ?_⟩⟩
      · have ha1 : (ioAddr x s).toNat = 0xF0 := by omega
        rwa [portWrite_mmu h1, ha1] at hd
      · exact BitVec.eq_of_toNat_eq (Nat.succ.inj ha2)
    exact ⟨_, ioWriteBytes_word_ok h1 h2⟩

/-! ## The MMU's registers port by port -/

section Ports

variable (v : Word) (m : Mmu)

theorem mmuAfter_word_F0 : mmuAfter .word 0xF0 v m = { m with iplDetached := m.iplDetached || v.getLsbD 0 } := by
  rw [← loByte_bit0]
  rfl

theorem mmuAfter_byte_F1 : mmuAfter .byte 0xF1 v m = { m with iplDetached := m.iplDetached || v.getLsbD 0 } := by
  rw [← loByte_bit0]
  rfl

theorem mmuAfter_word_F2 :
    mmuAfter .word 0xF2 v m = { m with relocation := v.getLsbD 0, paging := v.getLsbD 1 } := by
  rw [← loByte_bit0, ← loByte_bit1]
  rfl

theorem mmuAfter_byte_F3 :
    mmuAfter .byte 0xF3 v m = { m with relocation := v.getLsbD 0, paging := v.getLsbD 1 } := by
  rw [← loByte_bit0, ← loByte_bit1]
  rfl

theorem mmuAfter_word_F4 : mmuAfter .word 0xF4 v m = { m with base := v, tlbHold := v } := by
  have hbytes : mmuAfter .word 0xF4 v m =
      { m with
        base := joinBytes (hiByte (joinBytes (hiByte v) (loByte m.base))) (loByte v)
        tlbHold := joinBytes (hiByte (joinBytes (hiByte v) (loByte m.tlbHold))) (loByte v) } := rfl
  simp only [hbytes, hiByte_joinBytes, joinBytes_hi_lo]

theorem mmuAfter_word_F6 : mmuAfter .word 0xF6 v m = loadTlb v { m with limit := v } := by
  have hbytes : mmuAfter .word 0xF6 v m =
      loadTlb v { m with limit := joinBytes (hiByte (joinBytes (hiByte v) (loByte m.limit))) (loByte v) } := rfl
  simp only [hbytes, hiByte_joinBytes, joinBytes_hi_lo]

/-- Bits 10 to 8 of the word name the TLB entry that is loaded (20_memory.md R66). -/
theorem tlb_loadTlb (n : Fin 8) :
    (loadTlb v m).tlb[n] = if n.val = v.toNat / 256 % 8 then loByte v ++ m.tlbHold else m.tlb[n] := by
  have hindex : (v.extractLsb' 8 3).toNat = v.toNat / 256 % 8 := by
    simp [BitVec.extractLsb'_toNat, Nat.shiftRight_eq_div_pow]
  simp only [loadTlb, Fin.getElem_fin, Vector.getElem_set, hindex, eq_comm]

end Ports

end Sys2Proof.Machine
end

section
/-! Memory and the I/O space: the statements about 20_memory.md. -/

namespace Sys2Proof.Machine

/-- Settles O55: an interrupt's entry, the instruction and the end of the step each keep the invariant. -/
theorem everyStepKeepsTheInvariant : Obligations.EveryStepKeepsTheInvariant := by
  intro s t hs h
  obtain ⟨-, -, u, rfl, ⟨k, -, hirq⟩ | ⟨-, hrun⟩⟩ := (step_next_iff s t).mp h
  · exact stateInv_endStep (stateInv_takeInterrupt hs hirq)
  · exact stateInv_endStep (stateInv_runInstr hs hrun)

/-- Settles O13: the odd address stops both accesses; at an even one the bytes are those of `loadBytes` and
`byteAt_storeWord`. -/
theorem wordAccessesAreBigEndianAndAligned : Obligations.WordAccessesAreBigEndianAndAligned := by
  intro a v s
  refine ⟨fun ho => ⟨memRead_odd ho s, memWrite_odd ho v s⟩, fun ho hm => ⟨?read, fun hr => ?write⟩⟩
  case read => exact ⟨_, memRead_aligned (fun _ => ho) hm, hiByte_joinBytes _ _, loByte_joinBytes _ _⟩
  case write =>
    have hback : loadBytes .word a.toNat (s.setMem (storeBytes .word a.toNat v s.mem)) = v :=
      wordAt_store hr rfl rfl
    refine ⟨_, memWrite_aligned v (fun _ => ho) hm hr, ?_, ?_, ?_, fun x hx hx' => ?_⟩
    · exact (memRead_ok_iff _ _ _ _).mpr ⟨fun _ => ho, hm, hback.symm⟩
    · simp [byteAt_storeWord hr]
    · simp [byteAt_storeWord hr]
    · simp [byteAt_storeWord hr, hx, hx']

/-- Settles O14, by whether the ROM is seen at the address. -/
theorem attachedRomHidesTheRam : Obligations.AttachedRomHidesTheRam := by
  intro a v s hm
  have hread : memRead .byte a s = .ok ((byteAt s a.toNat).setWidth 16) := memRead_aligned (by simp) hm
  refine ⟨fun hd hlo hhi => ?attached, fun x hd ho hx hlo hhi => ?word, fun h => ?ram, Nat.min_le_right _ _, ?start⟩
  case attached =>
    have hrom : romAt s a.toNat = true := (romAt_iff s _).mpr ⟨hd, hlo, hhi⟩
    exact ⟨by rw [hread, byteAt_of_romAt hrom], memWrite_rom v (by simp) hm ((romTouched_byte s _).trans hrom)⟩
  case word =>
    have hrom : romAt s x = true := (romAt_iff s x).mpr ⟨hd, hlo, hhi⟩
    exact memWrite_rom v (fun _ => ho) hm (romTouched_word_of_romAt hx hrom)
  case ram =>
    have hrom : romAt s a.toNat = false := by
      rw [Bool.eq_false_iff, Ne, romAt_iff]
      rintro ⟨hd, hlo, hhi⟩
      rcases h with h | h | h
      · simp [hd] at h
      · omega
      · omega
    rw [hread, byteAt_of_not_romAt hrom]
  case start => exact Nat.lt_of_lt_of_le (Nat.lt_succ_self _) (Nat.le_max_right _ _)

/-- Settles O12: no byte access raises an exception, and what it does is `byteAt_storeByte`. -/
theorem byteAccessesHaveNoAlignmentFault : Obligations.ByteAccessesHaveNoAlignmentFault := by
  intro a v s
  refine ⟨fun k => ⟨memRead_byte_no_exc a s k, memWrite_byte_no_exc a v s k⟩, memRead_aligned (by simp),
    fun hm hrom => ?write⟩
  case write =>
    have hr : romTouched .byte a.toNat s = false := (romTouched_byte s _).trans hrom
    refine ⟨_, memWrite_aligned v (by simp) hm hr, ?_, fun x hx => ?_⟩
    · simp [byteAt_storeByte hr]
    · simp [byteAt_storeByte hr, hx]

/-- Settles O20: each instruction stops at its operand (`load_odd`, `store_odd`, `alu_odd`), and the violation is
taken. -/
theorem oddOperandsTakeTheViolation : Obligations.OddOperandsTakeTheViolation := by
  intro rd x s hw ho hready
  have htraps := settle_oddAccess_traps hready (s.pc + memBytes x)
  refine ⟨?ld, ?st, fun op hop => ?alu⟩
  case ld => rwa [exec_ofLd, load_odd hw ho]
  case st => rwa [exec_ofSt, store_odd hw ho]
  case alu =>
    have hrd : ¬(writesRd op = true ∧ rd = .flag) := by
      rintro ⟨hwrites, hflag⟩
      rcases hop with rfl | hne
      · cases hwrites
      · exact hne hflag
    rwa [exec_ofAlu, alu_odd hw ho hrd]

/-- Settles O39: each instruction stops at its push or pop, and P says on which stack trap entry then pushes. -/
theorem oddStackPointerTakesTheViolation : Obligations.OddStackPointerTakesTheViolation := by
  intro rd x s ho hn
  have hpush : exec (.push rd) s = settle s (s.pc + 2) (.error oddAccess) := pushReg_odd ho hn
  have hpop : exec (.pop rd) s = settle s (s.pc + 2) (.error oddAccess) := popReg_odd ho hn
  have hcall := (exec_ofCall x s).trans (call_odd ho x)
  have hret : exec .ret s = settle s (s.pc + 2) (.error oddAccess) := returnFromCall_odd ho
  have hreti : exec .reti s = settle s (s.pc + 2) (.error oddAccess) := returnFromTrap_odd ho
  rw [hpush, hpop, hcall, hret, hreti]
  refine ⟨fun _ hready => ?user, fun hp => ?privileged⟩
  case user =>
    have htraps := settle_oddAccess_traps hready
    exact ⟨htraps _, htraps _, htraps _, htraps _, htraps _⟩
  case privileged =>
    have hrefused := settle_oddAccess_refused (readReg_sp_priv hp ▸ ho)
    exact ⟨hrefused _, hrefused _, hrefused _, hrefused _, hrefused _⟩

/-- Settles O52: the fetch stops the step before anything is decoded, and the violation is taken. -/
theorem oddPcTakesTheViolation : Obligations.OddPcTakesTheViolation := by
  intro s hh hnone ho hready
  obtain ⟨hm, -⟩ := (trapReady_iff s).mp hready
  obtain ⟨t, spc, ht, hspc, hentered⟩ := settle_oddAccess_traps hready (s.pc + 2)
  have hrun : runInstr s = .next t := (runInstr_odd ho).trans ht
  exact ⟨t, spc, (step_next_iff s _).mpr ⟨hh, hm, t, rfl, .inr ⟨hnone, hrun⟩⟩, hspc, hentered⟩

/-- Settles O54, by the check of the mode bits that a step begins with. -/
theorem enabledMmuRefusesTheStep : Obligations.EnabledMmuRefusesTheStep := by
  intro s hh hm
  simp [step, hh, hm]

/-- Settles O49, by the two checks of the address. -/
theorem ioAddressesWithoutMeaningAreRefused : Obligations.IoAddressesWithoutMeaningAreRefused := by
  intro rd x s hp
  rw [exec_ofIn, exec_ofOut]
  refine ⟨fun habove => ?above, fun hle hw ho => ?odd⟩
  case above =>
    have hr := ioRefusal_above habove (ioWidth x)
    exact ⟨input_refused hp hr, output_refused hp hr⟩
  case odd =>
    have hr : ioRefusal (ioWidth x) (ioAddr x s) = some .ioWordAtOddAddress := hw ▸ ioRefusal_word_odd hle ho
    exact ⟨input_refused hp hr, output_refused hp hr⟩

/-- Settles O47: the write completes unless it re-attaches the ROM, and each clause is what `mmuAfter` says of its
port. -/
theorem mmuPortsSetTheirRegisters : Obligations.MmuPortsSetTheirRegisters := by
  intro rd x s hready v m hits
  rw [exec_ofOut]
  refine ⟨fun hre => output_write_refused hready (ioWriteBytes_reattach hre), fun hre => ?written⟩
  case written =>
    obtain ⟨u, hu⟩ := ioWriteBytes_completes hready hre
    have hmem : u.mem = s.mem := by
      obtain ⟨n, d, rfl⟩ := ioWriteBytes_keeps hu
      rfl
    have hport : ∀ w p, hits w p → (outDone rd x s u).mmu = mmuAfter w p v m := by
      rintro w p ⟨rfl, rfl⟩
      exact (outDone_mmu rd x s u).trans (ioWriteBytes_mmu hu)
    refine ⟨outDone rd x s u, output_written hready hu, fun hd a => ?detached, ?F0, ?F2, fun h => ?F4, fun h => ?F4h,
      fun h => ?F4l, fun h => ?F6, fun h => ?F6h, fun h => ?F6l, ?even⟩
    case detached => rw [byteAt_of_not_romAt (romAt_detached hd a), outDone_mem, hmem]
    case F0 =>
      rintro (h | h)
      · exact (hport _ _ h).trans (mmuAfter_word_F0 v m)
      · exact (hport _ _ h).trans (mmuAfter_byte_F1 v m)
    case F2 =>
      rintro (h | h)
      · exact (hport _ _ h).trans (mmuAfter_word_F2 v m)
      · exact (hport _ _ h).trans (mmuAfter_byte_F3 v m)
    case F4 => exact (hport _ _ h).trans (mmuAfter_word_F4 v m)
    case F4h => exact hport _ _ h
    case F4l => exact hport _ _ h
    case F6 =>
      rw [hport _ _ h, mmuAfter_word_F6]
      exact ⟨rfl, tlb_loadTlb v { m with limit := v }, rfl⟩
    case F6h => exact hport _ _ h
    case F6l => exact hport _ _ h
    case even => rintro (h | h) <;> exact hport _ _ h

end Sys2Proof.Machine
end

section
/-! SUPPORT. The decoder row by row of the opcode map (30_encoding.md R99): what each row decodes, from which words, and
which of its cells are empty. -/

namespace Sys2Proof

/-! ## The rows of the opcode map -/

/-- The rows of the opcode map that are not empty (30_encoding.md R99). -/
inductive MapRow where
  | no
  | ld
  | st
  | alu (op : AluOp)
  | jump
  | call
  | inp
  | out
  | stack
  | ret
  | svc
  | halt

/-- The OP value of a row's first cell (30_encoding.md R99). -/
def MapRow.base : MapRow → Nat
  | .no => 0x00
  | .ld => 0x08
  | .st => 0x10
  | .alu op => op.base
  | .jump => 0xA0
  | .call => 0xA8
  | .inp => 0xB0
  | .out => 0xB8
  | .stack => 0xC0
  | .ret => 0xD0
  | .svc => 0xF0
  | .halt => 0xF8

/-- The modes whose cells in a row are not empty; the refused mode 6 of the jumps and CALL among them
(30_encoding.md R99, R104). -/
def MapRow.modes : MapRow → List Nat
  | .no => [0]
  | .ld => [0, 1, 2, 3, 4, 5, 6, 7]
  | .st => [0, 1, 3, 6, 7]
  | .alu _ => [0, 1, 2, 3, 4, 5, 6, 7]
  | .jump => [0, 1, 6]
  | .call => [0, 1, 6]
  | .inp => [0, 6, 7]
  | .out => [0, 6, 7]
  | .stack => [0, 4]
  | .ret => [0, 4]
  | .svc => [0]
  | .halt => [7]

/-- How many of a row's modes, counted from mode 0, have a second word (30_encoding.md R86). -/
def MapRow.longModes : MapRow → Nat
  | .no => 0
  | .ld => 3
  | .st => 2
  | .alu _ => 3
  | .jump => 2
  | .call => 2
  | .inp => 1
  | .out => 1
  | .stack => 0
  | .ret => 0
  | .svc => 0
  | .halt => 0

/-- What the decoder reads in a row from the mode, the two fields and the second word. -/
def MapRow.decode (r : MapRow) (m : Nat) (rd rx : BitVec 4) (w2 : Word) : Decoded :=
  match r with
  | .no => decodePlain .no 0 m rd rx
  | .ld => decodeOperand (.ofLd (Reg.ofField rd)) m rx w2
  | .st => decodeStore (Reg.ofField rd) m rx w2
  | .alu op => decodeOperand (.ofAlu op (Reg.ofField rd)) m rx w2
  | .jump => decodeJump m rd rx w2
  | .call => decodeCall m rd rx w2
  | .inp => decodeIo (.ofIn (Reg.ofField rd)) m rx w2
  | .out => decodeIo (.ofOut (Reg.ofField rd)) m rx w2
  | .stack => decodeStack m rd rx
  | .ret => decodeReturn m rd rx
  | .svc => decodePlain .svc 0 m rd rx
  | .halt => decodePlain .halt 7 m rd rx

/-- The row with the number `OP[7:3]`, none for an empty one (30_encoding.md R99). -/
def mapRow : Nat → Option MapRow
  | 0 => some .no
  | 1 => some .ld
  | 2 => some .st
  | 3 => some (.alu .add)
  | 4 => some (.alu .sub)
  | 5 => some (.alu .cmp)
  | 6 => some (.alu .and)
  | 7 => some (.alu .or)
  | 8 => some (.alu .xor)
  | 9 => some (.alu .adds)
  | 10 => some (.alu .mul)
  | 11 => some (.alu .div)
  | 12 => some (.alu .mod)
  | 16 => some (.alu .shla)
  | 17 => some (.alu .shll)
  | 18 => some (.alu .shra)
  | 19 => some (.alu .shrl)
  | 20 => some .jump
  | 21 => some .call
  | 22 => some .inp
  | 23 => some .out
  | 24 => some .stack
  | 26 => some .ret
  | 30 => some .svc
  | 31 => some .halt
  | _ => none

/-- The rows 18h to 60h and 80h to 98h are the flag-changing instructions' (30_encoding.md R99). -/
theorem mapRow_alu {n : Nat} (h : (3 ≤ n ∧ n ≤ 12) ∨ (16 ≤ n ∧ n ≤ 19)) : ∃ op, mapRow n = some (.alu op) := by
  obtain ⟨hlo, hhi⟩ | ⟨hlo, hhi⟩ := h
  · interval_cases n <;> exact ⟨_, rfl⟩
  · interval_cases n <;> exact ⟨_, rfl⟩

theorem mapRow_base_div (r : MapRow) : mapRow (r.base / 8) = some r := by
  cases r with
  | alu op => cases op <;> rfl
  | _ => rfl

theorem MapRow.base_eq {n : Nat} {r : MapRow} (h : mapRow n = some r) : r.base = 8 * n := by
  unfold mapRow at h
  split at h <;> cases h <;> rfl

theorem MapRow.base_lt (r : MapRow) : r.base < 249 := by
  cases r with
  | alu op => cases op <;> decide
  | _ => decide

theorem MapRow.base_mod (r : MapRow) : r.base % 8 = 0 := by
  cases r with
  | alu op => cases op <;> rfl
  | _ => rfl

/-! ## The decoder and the length rule by row -/

/-- The decoder is the opcode map: the row by `OP[7:3]`, in it the cell by `OP[2:0]` (30_encoding.md R99). -/
theorem decode_eq_mapRow (w w2 : Word) :
    decode w w2 = (mapRow ((opField w).toNat / 8)).elim .undefined fun r =>
      r.decode ((opField w).toNat % 8) (rdField w) (rxField w) w2 := by
  have hlt : (opField w).toNat / 8 < 32 := by have := (opField w).isLt; omega
  simp only [decode]
  generalize (opField w).toNat / 8 = n at hlt
  interval_cases n <;> rfl

theorem decode_of_opField {w : Word} {op : Nat} {r : MapRow} (hop : (opField w).toNat = op)
    (hr : mapRow (op / 8) = some r) (w2 : Word) : decode w w2 = r.decode (op % 8) (rdField w) (rxField w) w2 := by
  rw [decode_eq_mapRow, hop, hr]
  rfl

/-- Every row's instructions are decoded where the row's base OP and the mode put them (30_encoding.md R82, R99). -/
theorem decode_firstWord (r : MapRow) {m : Nat} (hm : m < 8) (rd rx : BitVec 4) (w2 : Word) :
    decode (firstWord (r.base + m) rd rx) w2 = r.decode m rd rx w2 := by
  have hlt := r.base_lt
  have hmod := r.base_mod
  have hop : (opField (firstWord (r.base + m) rd rx)).toNat = r.base + m := by
    rw [opField_firstWord, BitVec.toNat_ofNat]
    omega
  have hdiv : (r.base + m) / 8 = r.base / 8 := by omega
  have hmode : (r.base + m) % 8 = m := by omega
  rw [decode_of_opField hop (hdiv ▸ mapRow_base_div r), hmode, rdField_firstWord, rxField_firstWord]

theorem wordCount_of_mapRow {w : Word} {r : MapRow} (hr : mapRow ((opField w).toNat / 8) = some r) :
    wordCount w = if (opField w).toNat % 8 < r.longModes then 2 else 1 := by
  simp only [wordCount]
  generalize (opField w).toNat / 8 = n at hr
  generalize (opField w).toNat % 8 = m
  unfold mapRow at hr
  split at hr <;> cases hr <;> simp [MapRow.longModes, Nat.lt_succ_iff]

theorem wordCount_eq_one_or_two (w : Word) : wordCount w = 1 ∨ wordCount w = 2 := by
  simp only [wordCount]
  split_ifs <;> simp

/-! ## Where a fixed field stops the decoder -/

theorem whenZero_ne {f : BitVec 4} (h : f ≠ 0) (d : Decoded) : whenZero f d = .rejected .fixedField :=
  if_neg h

theorem whenZero_whenZero_ne {f g : BitVec 4} (h : f ≠ 0 ∨ g ≠ 0) (d : Decoded) :
    whenZero f (whenZero g d) = .rejected .fixedField := by
  rcases h with hf | hg
  · exact whenZero_ne hf _
  · rw [whenZero_ne hg, whenZero, ite_self]

/-- A fixed field never makes a word undefined (30_encoding.md R105). -/
@[simp] theorem whenZero_undefined_iff (f : BitVec 4) (d : Decoded) :
    whenZero f d = .undefined ↔ f = 0 ∧ d = .undefined := by
  by_cases h : f = 0
  · simp only [whenZero, h, if_true, true_and]
  · simp only [whenZero_ne h, h, false_and, reduceCtorEq]

theorem Cond.ofField_eq_none_iff (f : BitVec 4) : Cond.ofField f = none ↔ f = 0xD := by
  revert f; decide

theorem Cond.toField_of_ofField {f : BitVec 4} {cond : Cond} (h : Cond.ofField f = some cond) : cond.toField = f := by
  revert h
  revert f
  cases cond <;> decide

end Sys2Proof
end

section
/-! SUPPORT. Each operand form and each row of the opcode map there and back: a form decodes from its own mode, field
and second word, and has those it was decoded from (30_encoding.md R83, R89). -/

namespace Sys2Proof

/-! ## Encoded forms decode to themselves -/

theorem decodeOperand_encoded (mk : Operand → Instr) {x : Operand} (hx : x.wf = true) (w2 : Word) :
    decodeOperand mk x.mode x.low (x.second.getD 0 w2) = .instr (mk x) := by
  cases x with
  | mem ea =>
    cases ea with
    | direct d => rfl
    | indexed d rx => exact congrArg (fun r => Decoded.instr (mk (.mem (.indexed d r)))) (Reg.ofField_toField rx)
    | fpRel d => exact congrArg (fun k => Decoded.instr (mk (.mem (.fpRel k)))) (dsp4OfField_toField d hx)
    | indir rx => exact congrArg (fun r => Decoded.instr (mk (.mem (.indir r)))) (Reg.ofField_toField rx)
    | byteIndir rx => exact congrArg (fun r => Decoded.instr (mk (.mem (.byteIndir r)))) (Reg.ofField_toField rx)
  | imm v => rfl
  | reg rs => exact congrArg (fun r => Decoded.instr (mk (.reg r))) (Reg.ofField_toField rs)
  | imm4 v => exact congrArg (fun k => Decoded.instr (mk (.imm4 k))) (imm4OfField_toField v hx)

theorem decodeStore_encoded (rd : Reg) {x : MemEa} (hx : x.wf = true) (w2 : Word) :
    decodeStore rd x.mode x.low (x.second.getD 0 w2) = .instr (.ofSt rd x) := by
  cases x with
  | direct d => rfl
  | indexed d rx => exact congrArg (fun r => Decoded.instr (.ofSt rd (.indexed d r))) (Reg.ofField_toField rx)
  | fpRel d => exact congrArg (fun k => Decoded.instr (.ofSt rd (.fpRel k))) (dsp4OfField_toField d hx)
  | indir rx => exact congrArg (fun r => Decoded.instr (.ofSt rd (.indir r))) (Reg.ofField_toField rx)
  | byteIndir rx => exact congrArg (fun r => Decoded.instr (.ofSt rd (.byteIndir r))) (Reg.ofField_toField rx)

theorem decodeJump_encoded (cond : Cond) (x : JumpEa) (w2 : Word) :
    decodeJump x.toMemEa.mode cond.toField x.toMemEa.low (x.toMemEa.second.getD 0 w2) = .instr (.ofJump cond x) := by
  cases x with
  | direct d => simp [decodeJump, JumpEa.toMemEa, MemEa.mode, MemEa.low, MemEa.second, Cond.ofField_toField, whenZero]
  | indexed d rx =>
    simp [decodeJump, JumpEa.toMemEa, MemEa.mode, MemEa.low, MemEa.second, Cond.ofField_toField, Reg.ofField_toField]

theorem decodeCall_encoded (x : JumpEa) (w2 : Word) :
    decodeCall x.toMemEa.mode 0 x.toMemEa.low (x.toMemEa.second.getD 0 w2) = .instr (.ofCall x) := by
  cases x with
  | direct d => rfl
  | indexed d rx => exact congrArg (fun r => Decoded.instr (.ofCall (.indexed d r))) (Reg.ofField_toField rx)

theorem decodeIo_encoded (mk : IoEa → Instr) (x : IoEa) (w2 : Word) :
    decodeIo mk x.toMemEa.mode x.toMemEa.low (x.toMemEa.second.getD 0 w2) = .instr (mk x) := by
  cases x with
  | direct d => rfl
  | indir rx => exact congrArg (fun r => Decoded.instr (mk (.indir r))) (Reg.ofField_toField rx)
  | byteIndir rx => exact congrArg (fun r => Decoded.instr (mk (.byteIndir r))) (Reg.ofField_toField rx)

/-! ## Decoded forms have the words they were decoded from -/

/-- An operand form is what mode `m`, the field `rx` and the second word `w2` say, where the first `k` modes have a
second word (30_encoding.md R86, R89); the forms of ST, the jumps, CALL, IN and OUT count as the operand forms they
share the encoding with. -/
structure Operand.ReadFrom (k m : Nat) (rx : BitVec 4) (w2 : Word) (x : Operand) : Prop where
  wf : x.wf = true
  mode : x.mode = m
  low : x.low = rx
  second : x.second = if m < k then [w2] else []

theorem decodeOperand_instr {mk : Operand → Instr} {m : Nat} {rx : BitVec 4} {w2 : Word} {i : Instr}
    (h : decodeOperand mk m rx w2 = .instr i) : ∃ x, i = mk x ∧ x.ReadFrom 3 m rx w2 := by
  unfold decodeOperand at h
  split at h
  case h_1 =>
    obtain ⟨rfl, ⟨⟩⟩ := (whenZero_instr_iff _ _ _).mp h
    exact ⟨_, rfl, rfl, rfl, rfl, rfl⟩
  case h_2 => cases h; exact ⟨_, rfl, rfl, rfl, Reg.toField_ofField rx, rfl⟩
  case h_3 =>
    obtain ⟨rfl, ⟨⟩⟩ := (whenZero_instr_iff _ _ _).mp h
    exact ⟨_, rfl, rfl, rfl, rfl, rfl⟩
  case h_4 => cases h; exact ⟨_, rfl, (dsp4Ok_ofField rx).1, rfl, (dsp4Ok_ofField rx).2, rfl⟩
  case h_5 => cases h; exact ⟨_, rfl, rfl, rfl, Reg.toField_ofField rx, rfl⟩
  case h_6 => cases h; exact ⟨_, rfl, (imm4Ok_ofField rx).1, rfl, (imm4Ok_ofField rx).2, rfl⟩
  case h_7 => cases h; exact ⟨_, rfl, rfl, rfl, Reg.toField_ofField rx, rfl⟩
  case h_8 => cases h; exact ⟨_, rfl, rfl, rfl, Reg.toField_ofField rx, rfl⟩
  case h_9 => cases h

theorem decodeStore_instr {rd : Reg} {m : Nat} {rx : BitVec 4} {w2 : Word} {i : Instr}
    (h : decodeStore rd m rx w2 = .instr i) : ∃ x, i = .ofSt rd x ∧ (Operand.mem x).ReadFrom 2 m rx w2 := by
  unfold decodeStore at h
  split at h
  case h_1 =>
    obtain ⟨rfl, ⟨⟩⟩ := (whenZero_instr_iff _ _ _).mp h
    exact ⟨_, rfl, rfl, rfl, rfl, rfl⟩
  case h_2 => cases h; exact ⟨_, rfl, rfl, rfl, Reg.toField_ofField rx, rfl⟩
  case h_3 => cases h; exact ⟨_, rfl, (dsp4Ok_ofField rx).1, rfl, (dsp4Ok_ofField rx).2, rfl⟩
  case h_4 => cases h; exact ⟨_, rfl, rfl, rfl, Reg.toField_ofField rx, rfl⟩
  case h_5 => cases h; exact ⟨_, rfl, rfl, rfl, Reg.toField_ofField rx, rfl⟩
  case h_6 => cases h

theorem decodeJump_instr {m : Nat} {rd rx : BitVec 4} {w2 : Word} {i : Instr} (h : decodeJump m rd rx w2 = .instr i) :
    ∃ cond x, i = .ofJump cond x ∧ cond.toField = rd ∧ (Operand.mem x.toMemEa).ReadFrom 2 m rx w2 := by
  unfold decodeJump at h
  split at h
  case h_1 =>
    split at h
    case h_1 cond hcond =>
      obtain ⟨rfl, ⟨⟩⟩ := (whenZero_instr_iff _ _ _).mp h
      exact ⟨cond, .direct w2, rfl, Cond.toField_of_ofField hcond, rfl, rfl, rfl, rfl⟩
    case h_2 => cases h
  case h_2 =>
    split at h
    case h_1 cond hcond =>
      cases h
      exact ⟨cond, .indexed w2 (Reg.ofField rx), rfl, Cond.toField_of_ofField hcond, rfl, rfl,
        Reg.toField_ofField rx, rfl⟩
    case h_2 => cases h
  case h_3 => cases h
  case h_4 => cases h

theorem decodeCall_instr {m : Nat} {rd rx : BitVec 4} {w2 : Word} {i : Instr} (h : decodeCall m rd rx w2 = .instr i) :
    rd = 0 ∧ ∃ x, i = .ofCall x ∧ (Operand.mem x.toMemEa).ReadFrom 2 m rx w2 := by
  unfold decodeCall at h
  split at h
  case h_1 =>
    obtain ⟨hrd, h'⟩ := (whenZero_instr_iff _ _ _).mp h
    obtain ⟨rfl, ⟨⟩⟩ := (whenZero_instr_iff _ _ _).mp h'
    exact ⟨hrd, .direct w2, rfl, rfl, rfl, rfl, rfl⟩
  case h_2 =>
    obtain ⟨hrd, ⟨⟩⟩ := (whenZero_instr_iff _ _ _).mp h
    exact ⟨hrd, .indexed w2 (Reg.ofField rx), rfl, rfl, rfl, Reg.toField_ofField rx, rfl⟩
  case h_3 => cases h
  case h_4 => cases h

theorem decodeIo_instr {mk : IoEa → Instr} {m : Nat} {rx : BitVec 4} {w2 : Word} {i : Instr}
    (h : decodeIo mk m rx w2 = .instr i) : ∃ x, i = mk x ∧ (Operand.mem x.toMemEa).ReadFrom 1 m rx w2 := by
  unfold decodeIo at h
  split at h
  case h_1 =>
    obtain ⟨rfl, ⟨⟩⟩ := (whenZero_instr_iff _ _ _).mp h
    exact ⟨.direct w2, rfl, rfl, rfl, rfl, rfl⟩
  case h_2 => cases h; exact ⟨.indir (Reg.ofField rx), rfl, rfl, rfl, Reg.toField_ofField rx, rfl⟩
  case h_3 => cases h; exact ⟨.byteIndir (Reg.ofField rx), rfl, rfl, rfl, Reg.toField_ofField rx, rfl⟩
  case h_4 => cases h

theorem decodeStack_instr {m : Nat} {rd rx : BitVec 4} {i : Instr} (h : decodeStack m rd rx = .instr i) :
    rx = 0 ∧ (m = 0 ∧ i = .push (Reg.ofField rd) ∨ m = 4 ∧ i = .pop (Reg.ofField rd)) := by
  unfold decodeStack at h
  split at h
  case h_1 =>
    obtain ⟨hrx, ⟨⟩⟩ := (whenZero_instr_iff _ _ _).mp h
    exact ⟨hrx, .inl ⟨rfl, rfl⟩⟩
  case h_2 =>
    obtain ⟨hrx, ⟨⟩⟩ := (whenZero_instr_iff _ _ _).mp h
    exact ⟨hrx, .inr ⟨rfl, rfl⟩⟩
  case h_3 => cases h

theorem decodeReturn_instr {m : Nat} {rd rx : BitVec 4} {i : Instr} (h : decodeReturn m rd rx = .instr i) :
    rx = 0 ∧ (m = 0 ∧ rd = 0 ∧ i = .ret ∨ m = 4 ∧ rd = 15 ∧ i = .reti) := by
  unfold decodeReturn at h
  split at h
  case h_1 =>
    obtain ⟨hrd, h'⟩ := (whenZero_instr_iff _ _ _).mp h
    obtain ⟨hrx, ⟨⟩⟩ := (whenZero_instr_iff _ _ _).mp h'
    exact ⟨hrx, .inl ⟨rfl, hrd, rfl⟩⟩
  case h_2 =>
    split at h
    case isTrue hrd =>
      obtain ⟨hrx, ⟨⟩⟩ := (whenZero_instr_iff _ _ _).mp h
      exact ⟨hrx, .inr ⟨rfl, hrd, rfl⟩⟩
    case isFalse => cases h
  case h_3 => cases h

theorem decodePlain_instr {j : Instr} {low m : Nat} {rd rx : BitVec 4} {i : Instr}
    (h : decodePlain j low m rd rx = .instr i) : m = low ∧ rd = 0 ∧ rx = 0 ∧ i = j := by
  unfold decodePlain at h
  split at h
  case isTrue hm =>
    obtain ⟨hrd, h'⟩ := (whenZero_instr_iff _ _ _).mp h
    obtain ⟨hrx, ⟨⟩⟩ := (whenZero_instr_iff _ _ _).mp h'
    exact ⟨hm, hrd, hrx, rfl⟩
  case isFalse => cases h

/-! ## Rows there and back -/

/-- The row an instruction of a shape stands in, written out as its instruction. -/
def Instr.ofForm : Form → Instr
  | .no => .no
  | .ld rd x => .ofLd rd x
  | .st rd x => .ofSt rd x
  | .alu op rd x => .ofAlu op rd x
  | .jump cond x => .ofJump cond x
  | .call x => .ofCall x
  | .inp rd x => .ofIn rd x
  | .out rd x => .ofOut rd x
  | .push rd => .push rd
  | .pop rd => .pop rd
  | .ret => .ret
  | .reti => .reti
  | .svc => .svc
  | .halt => .halt

theorem Instr.ofForm_form (i : Instr) : Instr.ofForm i.form = i := by
  cases i <;> rfl

theorem MemEa.mode_lt (x : MemEa) : x.mode < 8 := Operand.mode_lt (.mem x)

/-- Every well-formed shape decodes from its words, whatever follows a one-word one (30_encoding.md R99 to R103). -/
theorem decode_encode_form {f : Form} (hf : f.wf = true) (w2 : Word) :
    decode (f.encode.headD 0) (f.encode.getD 1 w2) = .instr (.ofForm f) := by
  cases f with
  | no => exact decode_firstWord .no (m := 0) (by omega) 0 0 w2
  | ld rd x =>
    have hrow := decode_firstWord .ld x.mode_lt rd.toField x.low (x.second.getD 0 w2)
    rw [MapRow.decode, Reg.ofField_toField, decodeOperand_encoded _ hf] at hrow
    exact hrow
  | st rd x =>
    have hrow := decode_firstWord .st x.mode_lt rd.toField x.low (x.second.getD 0 w2)
    rw [MapRow.decode, Reg.ofField_toField, decodeStore_encoded _ hf] at hrow
    exact hrow
  | alu op rd x =>
    have hrow := decode_alu op x.mode_lt rd.toField x.low (x.second.getD 0 w2)
    rw [Reg.ofField_toField, decodeOperand_encoded _ hf] at hrow
    exact hrow
  | jump cond x => exact (decode_firstWord .jump x.toMemEa.mode_lt _ _ _).trans (decodeJump_encoded cond x w2)
  | call x => exact (decode_firstWord .call x.toMemEa.mode_lt _ _ _).trans (decodeCall_encoded x w2)
  | inp rd x =>
    have hrow := decode_firstWord .inp x.toMemEa.mode_lt rd.toField x.toMemEa.low (x.toMemEa.second.getD 0 w2)
    rw [MapRow.decode, Reg.ofField_toField, decodeIo_encoded] at hrow
    exact hrow
  | out rd x =>
    have hrow := decode_firstWord .out x.toMemEa.mode_lt rd.toField x.toMemEa.low (x.toMemEa.second.getD 0 w2)
    rw [MapRow.decode, Reg.ofField_toField, decodeIo_encoded] at hrow
    exact hrow
  | push rd =>
    have hrow := decode_firstWord .stack (m := 0) (by omega) rd.toField 0 w2
    exact hrow.trans (congrArg (fun r => Decoded.instr (.push r)) (Reg.ofField_toField rd))
  | pop rd =>
    have hrow := decode_firstWord .stack (m := 4) (by omega) rd.toField 0 w2
    exact hrow.trans (congrArg (fun r => Decoded.instr (.pop r)) (Reg.ofField_toField rd))
  | ret => exact decode_firstWord .ret (m := 0) (by omega) 0 0 w2
  | reti => exact decode_firstWord .ret (m := 4) (by omega) 15 0 w2
  | svc => exact decode_firstWord .svc (m := 0) (by omega) 0 0 w2
  | halt => exact decode_firstWord .halt (m := 7) (by omega) 0 0 w2

theorem Operand.ReadFrom.encodeOperand_eq {k m : Nat} {rx : BitVec 4} {w2 : Word} {x : Operand}
    (h : x.ReadFrom k m rx w2) (base : Nat) (rd : BitVec 4) :
    encodeOperand base rd x = firstWord (base + m) rd rx :: if m < k then [w2] else [] := by
  rw [encodeOperand, h.mode, h.low, h.second]

/-- What a row decodes is well formed and is encoded by the words it was read from. -/
theorem MapRow.decode_instr {r : MapRow} {m : Nat} {rd rx : BitVec 4} {w2 : Word} {i : Instr}
    (h : r.decode m rd rx w2 = .instr i) :
    i.wf = true ∧ encode i = firstWord (r.base + m) rd rx :: if m < r.longModes then [w2] else [] := by
  cases r with
  | no => obtain ⟨rfl, rfl, rfl, rfl⟩ := decodePlain_instr h; exact ⟨rfl, rfl⟩
  | ld =>
    obtain ⟨x, rfl, hx⟩ := decodeOperand_instr h
    rw [Instr.wf, encode, Machine.form_ofLd, Form.encode, Reg.toField_ofField]
    exact ⟨hx.wf, hx.encodeOperand_eq _ _⟩
  | st =>
    obtain ⟨x, rfl, hx⟩ := decodeStore_instr h
    rw [Instr.wf, encode, Machine.form_ofSt, Form.encode, Reg.toField_ofField]
    exact ⟨hx.wf, hx.encodeOperand_eq _ _⟩
  | alu op =>
    obtain ⟨x, rfl, hx⟩ := decodeOperand_instr h
    rw [Instr.wf, encode, Machine.form_ofAlu, Form.encode, Reg.toField_ofField]
    exact ⟨hx.wf, hx.encodeOperand_eq _ _⟩
  | jump =>
    obtain ⟨cond, x, rfl, rfl, hx⟩ := decodeJump_instr h
    rw [Instr.wf, encode, Machine.form_ofJump]
    exact ⟨rfl, hx.encodeOperand_eq _ _⟩
  | call =>
    obtain ⟨rfl, x, rfl, hx⟩ := decodeCall_instr h
    rw [Instr.wf, encode, Machine.form_ofCall]
    exact ⟨rfl, hx.encodeOperand_eq _ _⟩
  | inp =>
    obtain ⟨x, rfl, hx⟩ := decodeIo_instr h
    rw [Instr.wf, encode, Machine.form_ofIn, Form.encode, Reg.toField_ofField]
    exact ⟨rfl, hx.encodeOperand_eq _ _⟩
  | out =>
    obtain ⟨x, rfl, hx⟩ := decodeIo_instr h
    rw [Instr.wf, encode, Machine.form_ofOut, Form.encode, Reg.toField_ofField]
    exact ⟨rfl, hx.encodeOperand_eq _ _⟩
  | stack =>
    obtain ⟨rfl, ⟨rfl, rfl⟩ | ⟨rfl, rfl⟩⟩ := decodeStack_instr h
    · exact ⟨rfl, congrArg (fun f => [firstWord 0xC0 f 0]) (Reg.toField_ofField rd)⟩
    · exact ⟨rfl, congrArg (fun f => [firstWord 0xC4 f 0]) (Reg.toField_ofField rd)⟩
  | ret =>
    obtain ⟨rfl, ⟨rfl, rfl, rfl⟩ | ⟨rfl, rfl, rfl⟩⟩ := decodeReturn_instr h
    · exact ⟨rfl, rfl⟩
    · exact ⟨rfl, rfl⟩
  | svc => obtain ⟨rfl, rfl, rfl, rfl⟩ := decodePlain_instr h; exact ⟨rfl, rfl⟩
  | halt => obtain ⟨rfl, rfl, rfl, rfl⟩ := decodePlain_instr h; exact ⟨rfl, rfl⟩

/-- A word that decodes to an instruction lies in a row of the opcode map, whose decoder reads it. -/
theorem exists_mapRow_of_decode {w w2 : Word} {i : Instr} (h : decode w w2 = .instr i) :
    ∃ r, mapRow ((opField w).toNat / 8) = some r ∧
      r.decode ((opField w).toNat % 8) (rdField w) (rxField w) w2 = .instr i := by
  rw [decode_eq_mapRow] at h
  cases hr : mapRow ((opField w).toNat / 8) with
  | none => rw [hr] at h; cases h
  | some r => rw [hr] at h; exact ⟨r, rfl, h⟩

end Sys2Proof
end

section
/-! SUPPORT. Which first words are undefined, cell by cell of the opcode map (30_encoding.md R104). -/

namespace Sys2Proof

/-- All eight cells of a row with operand forms are filled (30_encoding.md R100). -/
theorem decodeOperand_ne_undefined (mk : Operand → Instr) {m : Nat} (hm : m < 8) (rx : BitVec 4) (w2 : Word) :
    decodeOperand mk m rx w2 ≠ .undefined := by
  interval_cases m <;> simp [decodeOperand]

theorem decodeStore_undefined_iff (r : Reg) (m : Nat) (rx : BitVec 4) (w2 : Word) :
    decodeStore r m rx w2 = .undefined ↔ m ∉ [0, 1, 3, 6, 7] := by
  unfold decodeStore
  split <;> simp_all

theorem decodeJump_undefined_iff (m : Nat) (rd rx : BitVec 4) (w2 : Word) :
    decodeJump m rd rx w2 = .undefined ↔ m ∉ [0, 1, 6] := by
  unfold decodeJump
  split
  case h_1 => cases Cond.ofField rd <;> simp
  case h_2 => cases Cond.ofField rd <;> simp
  case h_3 => simp
  case h_4 => simp_all

theorem decodeCall_undefined_iff (m : Nat) (rd rx : BitVec 4) (w2 : Word) :
    decodeCall m rd rx w2 = .undefined ↔ m ∉ [0, 1, 6] := by
  unfold decodeCall
  split <;> simp_all

theorem decodeIo_undefined_iff (mk : IoEa → Instr) (m : Nat) (rx : BitVec 4) (w2 : Word) :
    decodeIo mk m rx w2 = .undefined ↔ m ∉ [0, 6, 7] := by
  unfold decodeIo
  split <;> simp_all

theorem decodeStack_undefined_iff (m : Nat) (rd rx : BitVec 4) :
    decodeStack m rd rx = .undefined ↔ m ∉ [0, 4] := by
  unfold decodeStack
  split <;> simp_all

theorem decodeReturn_undefined_iff (m : Nat) (rd rx : BitVec 4) :
    decodeReturn m rd rx = .undefined ↔ m ∉ [0, 4] := by
  unfold decodeReturn
  split
  case h_1 => simp
  case h_2 => split <;> simp
  case h_3 => simp_all

theorem decodePlain_undefined_iff (i : Instr) (low m : Nat) (rd rx : BitVec 4) :
    decodePlain i low m rd rx = .undefined ↔ m ∉ [low] := by
  unfold decodePlain
  split <;> simp_all

/-- A row's undefined cells are those of the modes it does not have (30_encoding.md R99, R104). -/
theorem MapRow.decode_undefined_iff (r : MapRow) {m : Nat} (hm : m < 8) (rd rx : BitVec 4) (w2 : Word) :
    r.decode m rd rx w2 = .undefined ↔ m ∉ r.modes := by
  have hall : m ∈ [0, 1, 2, 3, 4, 5, 6, 7] := List.mem_range.mpr hm
  have hfull : ∀ mk, decodeOperand mk m rx w2 = .undefined ↔ m ∉ [0, 1, 2, 3, 4, 5, 6, 7] := fun mk =>
    iff_of_false (decodeOperand_ne_undefined mk hm rx w2) (not_not_intro hall)
  cases r with
  | no => exact decodePlain_undefined_iff _ _ _ _ _
  | ld => exact hfull _
  | st => exact decodeStore_undefined_iff _ _ _ _
  | alu op => exact hfull _
  | jump => exact decodeJump_undefined_iff _ _ _ _
  | call => exact decodeCall_undefined_iff _ _ _ _
  | inp => exact decodeIo_undefined_iff _ _ _ _
  | out => exact decodeIo_undefined_iff _ _ _ _
  | stack => exact decodeStack_undefined_iff _ _ _
  | ret => exact decodeReturn_undefined_iff _ _ _
  | svc => exact decodePlain_undefined_iff _ _ _ _ _
  | halt => exact decodePlain_undefined_iff _ _ _ _ _

/-- The cell of an OP value in the opcode map is empty (30_encoding.md R99). -/
def cellEmpty (op : Nat) : Bool := (mapRow (op / 8)).elim true fun r => decide (op % 8 ∉ r.modes)

theorem decode_undefined_iff_cellEmpty (w w2 : Word) :
    decode w w2 = .undefined ↔ cellEmpty (opField w).toNat = true := by
  rw [decode_eq_mapRow, cellEmpty]
  cases mapRow ((opField w).toNat / 8) with
  | none => simp
  | some r =>
    have hm : (opField w).toNat % 8 < 8 := Nat.mod_lt _ (by omega)
    simpa using r.decode_undefined_iff hm (rdField w) (rxField w) w2

end Sys2Proof
end

section
/-! SUPPORT. What a fetch and a step do where PC can be fetched from (30_encoding.md R87, 60_exceptions.md R206), and
what the operand forms answer where nothing stops them (R90). -/

namespace Sys2Proof.Machine

/-! ## Operand values -/

theorem operandValue_word (x : MemEa) {s : State} (hw : memWidth x = .word) (hm : mmuOn s = false)
    (ho : isOdd (memAddr x s) = false) : operandValue (.mem x) s = .ok (wordAt s (memAddr x s)) := by
  rw [operandValue_mem, hw, memRead_aligned (fun _ => ho) hm, loadBytes_word]

theorem operandValue_byte (x : MemEa) {s : State} (hw : memWidth x = .byte) (hm : mmuOn s = false) :
    operandValue (.mem x) s = .ok ((byteAt s (memAddr x s).toNat).setWidth 16) := by
  rw [operandValue_mem, hw, memRead_aligned (by simp) hm]
  rfl

/-! ## Fetching -/

/-- What the fetch makes of a decoder's answer (30_encoding.md R104, R105, R111). -/
def fetched : Decoded → Except Stop Instr
  | .instr i => .ok i
  | .undefined => .error (.exc .undefinedInstruction)
  | .rejected why => .error (.refuse (.encoding why))

theorem fetchReady_iff (s : State) :
    fetchReady s = true ↔ s.halted = false ∧ mmuOn s = false ∧ isOdd s.pc = false ∧ acceptedInterrupt s = none := by
  simp [fetchReady, and_assoc]

/-- The fetch reads the words at PC, the second one only where the length rule says so, and decodes them. -/
theorem fetch_ready {s : State} (h : fetchReady s = true) :
    fetch s = fetched (decode (wordAt s s.pc) (secondWord s)) := by
  obtain ⟨-, hm, ho, -⟩ := (fetchReady_iff s).mp h
  have hfirst : memRead .word s.pc s = .ok (wordAt s s.pc) := memRead_aligned (fun _ => ho) hm
  have hnext : memRead .word (s.pc + 2) s = .ok (wordAt s (s.pc + 2)) :=
    memRead_aligned (fun _ => (isOdd_add_two _).trans ho) hm
  have hsecond : fetchSecond (wordAt s s.pc) s = .ok (secondWord s) := by
    unfold fetchSecond secondWord
    split
    · exact hnext
    · rfl
  simp only [fetch, hfirst, hsecond]
  cases decode (wordAt s s.pc) (secondWord s) <;> rfl

theorem step_ready {s : State} (h : fetchReady s = true) : step s = finishStep (runInstr s) := by
  obtain ⟨hh, hm, -, hnone⟩ := (fetchReady_iff s).mp h
  simp [step, hh, hm, hnone]

theorem step_instr {s : State} {i : Instr} (h : fetchReady s = true)
    (hd : decode (wordAt s s.pc) (secondWord s) = .instr i) : step s = finishStep (exec i s) := by
  simp only [step_ready h, runInstr, fetch_ready h, hd, fetched]

theorem step_undefined {s : State} (h : fetchReady s = true)
    (hd : decode (wordAt s s.pc) (secondWord s) = .undefined) :
    step s = finishStep (takeException .undefinedInstruction (s.pc + 2) s) := by
  simp only [step_ready h, runInstr, fetch_ready h, hd, fetched, settle_exc]

theorem step_rejected {s : State} {why : Reject} (h : fetchReady s = true)
    (hd : decode (wordAt s s.pc) (secondWord s) = .rejected why) : step s = .refused (.encoding why) := by
  simp only [step_ready h, runInstr, fetch_ready h, hd, fetched, settle_refuse, finishStep]

/-- A state is what the end of a step leaves of it but for memory and the draw (20_memory.md R72). -/
theorem endStep_restored (t : State) : { endStep t with mem := t.mem, draws := t.draws } = t := by
  obtain ⟨m, he, -⟩ := endStep_eq t
  rw [he]
  rfl

end Sys2Proof.Machine
end

section
/-! Encoding: the statements about 30_encoding.md. -/

namespace Sys2Proof.Machine

/-- Settles O5: the words are those of a row of the opcode map, and each row's words are its instructions' own
(`MapRow.decode_instr`). -/
theorem encodeOfDecodeIsTheWords : Obligations.EncodeOfDecodeIsTheWords := by
  intro w w2 i h
  obtain ⟨r, hr, hdec⟩ := exists_mapRow_of_decode h
  obtain ⟨hwf, henc⟩ := MapRow.decode_instr hdec
  have hop : r.base + (opField w).toNat % 8 = (opField w).toNat := by
    rw [MapRow.base_eq hr, Nat.div_add_mod]
  rw [hop, ← word_eq_firstWord] at henc
  refine ⟨hwf, ?_⟩
  rw [henc, wordCount_of_mapRow hr]
  split <;> rfl

/-- Settles O4: the shape decodes from its words (`decode_encode_form`), and the length is what O5 then says of the
first of them. -/
theorem decodeOfEncodeIsTheInstruction : Obligations.DecodeOfEncodeIsTheInstruction := by
  intro i w2 hwf
  have hdec : decode ((encode i).headD 0) ((encode i).getD 1 w2) = .instr i :=
    (decode_encode_form (f := i.form) hwf w2).trans (congrArg Decoded.instr i.ofForm_form)
  obtain ⟨-, hwords⟩ := encodeOfDecodeIsTheWords _ _ _ hdec
  refine ⟨hdec, (congrArg List.length hwords).trans ?_⟩
  rcases wordCount_eq_one_or_two ((encode i).headD 0) with hone | htwo
  · rw [hone]; rfl
  · rw [htwo]; rfl

/-- Settles O7: the list is that of the empty cells of the opcode map, OP value by OP value. -/
theorem undefinedWordsAreTheEmptyCells : Obligations.UndefinedWordsAreTheEmptyCells := by
  intro w w2
  rw [decode_undefined_iff_cellEmpty]
  generalize opField w = op
  revert op
  decide

/-- Settles O8, by the row that each clause's OP values stand in. -/
theorem refusedWordsAreRefused : Obligations.RefusedWordsAreRefused := by
  intro w w2 op
  refine ⟨fun h => ?jumpIndirect, fun h => ?callIndirect, fun h hrd => ?conditionD, fun h hrd => ?retiRd,
    fun h hrd hrx => ?retiRx, fun h hf => ?bothFields, fun h hrd => ?callRd, fun h hrx => ?rx,
    fun h hm hrx => ?aluRx, fun h hrd hrx => ?jumpRx⟩
  case jumpIndirect => exact decode_of_opField h rfl w2
  case callIndirect => exact decode_of_opField h rfl w2
  case conditionD =>
    have hnone := (Cond.ofField_eq_none_iff _).mpr hrd
    rcases h with h | h <;> simp [decode_of_opField h rfl w2, MapRow.decode, decodeJump, hnone]
  case retiRd => exact (decode_of_opField h rfl w2).trans (if_neg hrd)
  case retiRx => exact (decode_of_opField h rfl w2).trans ((if_pos hrd).trans (whenZero_ne hrx _))
  case bothFields =>
    rcases h with h | h | h | h | h <;> exact (decode_of_opField h rfl w2).trans (whenZero_whenZero_ne hf _)
  case callRd => exact (decode_of_opField h rfl w2).trans (whenZero_ne hrd _)
  case rx =>
    rcases h with h | h | h | h | h | h | h <;> exact (decode_of_opField h rfl w2).trans (whenZero_ne hrx _)
  case aluRx =>
    obtain ⟨o, ho⟩ := mapRow_alu (n := op / 8) (by omega)
    rw [decode_of_opField rfl ho]
    change decodeOperand _ (op % 8) _ w2 = _
    rcases hm with hm | hm <;> rw [hm] <;> exact whenZero_ne hrx _
  case jumpRx =>
    have hsome := mt (Cond.ofField_eq_none_iff _).mp hrd
    obtain ⟨cond, hcond⟩ := Option.ne_none_iff_exists'.mp hsome
    simp [decode_of_opField h rfl w2, MapRow.decode, decodeJump, hcond, whenZero_ne hrx]

/-- Settles O15, form by form. -/
theorem operandFormsGiveTheirValues : Obligations.OperandFormsGiveTheirValues := by
  intro s d v r k hm
  refine ⟨operandValue_word (.direct d) rfl hm, operandValue_word (.indexed d r) rfl hm, rfl,
    operandValue_word (.fpRel k) rfl hm, rfl, rfl, operandValue_word (.indir r) rfl hm,
    _, operandValue_byte (.byteIndir r) rfl hm, ?byte⟩
  case byte => exact BitVec.toNat_setWidth_of_le (by omega)

/-- Settles O51: an undefined word takes its exception (`step_undefined`), which records nothing in the MMU's
registers. -/
theorem stepOnAWordThatIsNoInstruction : Obligations.StepOnAWordThatIsNoInstruction := by
  intro s h
  refine ⟨fun hd hready => ?undefined, fun why hd => step_rejected h hd⟩
  case undefined =>
    obtain ⟨t, spc, ht, hspc, hentered⟩ := takeException_traps hready .undefinedInstruction (s.pc + 2)
    exact ⟨t, spc, by rw [step_undefined h hd, ht]; rfl, hspc, hentered⟩

/-- Settles O6, word by word. -/
theorem sampleWordsDecode : Obligations.SampleWordsDecode := by
  unfold Obligations.SampleWordsDecode
  decide

/-- Settles O50: the instruction is well formed by O5, and the end of a step is `endStep_eq`. -/
theorem stepRunsTheDecodedInstruction : Obligations.StepRunsTheDecodedInstruction := by
  intro s i h hd
  obtain ⟨hwf, -⟩ := encodeOfDecodeIsTheWords _ _ _ hd
  refine ⟨hwf, step_instr h hd, fun t => ⟨rfl, endStep_restored t, rfl, fun hstarted => ?mem⟩, fun _ => rfl,
    fun _ => rfl⟩
  case mem =>
    obtain ⟨m, he, hm⟩ := endStep_eq t
    rw [he]
    exact hm hstarted

end Sys2Proof.Machine
end

section
/-! SUPPORT. What a register write keeps, and what LD and ST leave where nothing stops them (40_no_load_store.md R122,
R123). -/

namespace Sys2Proof.Machine

/-! ## Frames of the updates -/

@[simp] theorem readReg_setPc (r : Reg) (v : Word) (s : State) : readReg r (s.setPc v) = readReg r s := by
  cases r <;> rfl

/-- A register write reaches no physical register but the one its name stands for (10_state.md R25). -/
theorem regsKeptBut_writeReg (r : Reg) (v : Word) (s : State) : RegsKeptBut (physOf r s.flag.p) s (writeReg r v s) := by
  intro q hq
  rw [physRead_writeReg, if_neg hq]

theorem bytesKept_writeReg (r : Reg) (v : Word) (s : State) : BytesKept s (writeReg r v s) := by
  obtain ⟨hmem, hmmu, -⟩ := writeReg_keeps r v s
  exact byteAt_congr hmem hmmu

theorem systemKept_writeReg (r : Reg) (v : Word) (s : State) : SystemKept s (writeReg r v s) := by
  obtain ⟨-, hmmu, hio, hhalted, hdraws, -⟩ := writeReg_keeps r v s
  exact ⟨hmmu, hio, hhalted, hdraws⟩

/-- FLAG after a register write: through its filter where it is the register (10_state.md R25, R33). -/
theorem flag_writeReg (r : Reg) (v : Word) (s : State) :
    (writeReg r v s).flag = if r = .flag then s.flag.write v else s.flag := by
  by_cases h : r = .flag
  · subst h; rfl
  · rw [if_neg h, writeReg_flag r v s h]

/-! ## LD and ST -/

/-- The state after LD with a readable operand (40_no_load_store.md R122). -/
def loaded (rd : Reg) (x : Operand) (s : State) : State :=
  (writeReg rd (operandWord x s) s).setPc (s.pc + operandBytes x)

theorem load_ready {x : Operand} {s : State} (h : operandReady x s = true) (rd : Reg) :
    load rd x s = .next (loaded rd x s) := by
  simp only [load, loadBody, operandValue_ok h, settle_ok, loaded]

/-- The state after ST to a writable address (40_no_load_store.md R123). -/
def stored (rd : Reg) (x : MemEa) (s : State) : State :=
  (s.setMem (storeBytes (memWidth x) (memAddr x s).toNat (readReg rd s) s.mem)).setPc (s.pc + memBytes x)

theorem store_ready {x : MemEa} {s : State} (h : eaReady x s = true)
    (hr : romTouched (memWidth x) (memAddr x s).toNat s = false) (rd : Reg) : store rd x s = .next (stored rd x s) := by
  obtain ⟨ho, hm⟩ := (eaReady_iff x s).mp h
  simp only [store, storeBody, memWrite_aligned _ ho hm hr, settle_ok, stored]

theorem byteAt_stored_word {x : MemEa} {s : State} (hw : memWidth x = .word)
    (hr : romTouched (memWidth x) (memAddr x s).toNat s = false) (rd : Reg) (a : Nat) :
    byteAt (stored rd x s) a =
      if a = (memAddr x s).toNat + 1 then loByte (readReg rd s)
      else if a = (memAddr x s).toNat then hiByte (readReg rd s) else byteAt s a := by
  rw [hw] at hr
  rw [← byteAt_storeWord hr, stored, hw]
  rfl

theorem byteAt_stored_byte {x : MemEa} {s : State} (hw : memWidth x = .byte)
    (hr : romTouched (memWidth x) (memAddr x s).toNat s = false) (rd : Reg) (a : Nat) :
    byteAt (stored rd x s) a = if a = (memAddr x s).toNat then loByte (readReg rd s) else byteAt s a := by
  rw [hw] at hr
  rw [← byteAt_storeByte hr, stored, hw]
  rfl

/-- A stored word is the operand of every word form that names its address (20_memory.md R52). -/
theorem operandWord_stored {x y : MemEa} {s : State} {rs : Reg} (hx : memWidth x = .word) (hy : memWidth y = .word)
    (hr : romTouched (memWidth x) (memAddr x s).toNat s = false) (ha : memAddr y (stored rs x s) = memAddr x s) :
    operandWord (.mem y) (stored rs x s) = readReg rs s := by
  have hmem : (stored rs x s).mem = storeBytes .word (memAddr x s).toNat (readReg rs s) s.mem := by
    rw [← hx]; rfl
  rw [hx] at hr
  simp only [operandWord, hy, ha]
  exact wordAt_store hr hmem rfl

end Sys2Proof.Machine
end

section
/-! SUPPORT. With a usable system stack every shape that the spec gives a meaning answers a next state: its own effect,
or the exception it raises (40_no_load_store.md R120, 60_exceptions.md R209, R214). -/

namespace Sys2Proof.Machine

/-! ## An access raises nothing, or is a word at an odd address -/

theorem eaReady_or_odd {s : State} (hm : mmuOn s = false) (x : MemEa) :
    eaReady x s = true ∨ memWidth x = .word ∧ isOdd (memAddr x s) = true := by
  rw [eaReady_iff]
  cases ho : isOdd (memAddr x s) <;> cases hw : memWidth x <;> simp [hm]

theorem operandReady_or_odd {s : State} (hm : mmuOn s = false) (x : Operand) :
    operandReady x s = true ∨ ∃ ea, x = .mem ea ∧ memWidth ea = .word ∧ isOdd (memAddr ea s) = true := by
  cases x with
  | mem ea => exact (eaReady_or_odd hm ea).imp_right fun hodd => ⟨ea, rfl, hodd⟩
  | _ => exact .inl rfl

theorem popReady_or_odd {s : State} (hm : mmuOn s = false) : popReady s = true ∨ isOdd (readReg .sp s) = true := by
  cases ho : isOdd (readReg .sp s) <;> simp [popReady, hm, ho]

theorem popReady_iff (s : State) : popReady s = true ↔ mmuOn s = false ∧ isOdd (readReg .sp s) = false := by
  simp [popReady]

theorem pushReady_iff (s : State) :
    pushReady s = true ↔ mmuOn s = false ∧ isOdd (readReg .sp s) = false ∧
      romTouched .word (readReg .sp s - 2).toNat s = false := by
  simp [pushReady, and_assoc]

theorem push_ready {s : State} (h : pushReady s = true) (v : Word) : ∃ t, push v s = .ok t := by
  obtain ⟨hm, ho, hr⟩ := (pushReady_iff s).mp h
  exact ⟨_, (push_ok_iff v s _).mpr ⟨ho, hm, hr, rfl⟩⟩

theorem pop_ready {s : State} (h : popReady s = true) : ∃ v t, pop s = .ok (v, t) := by
  obtain ⟨hm, ho⟩ := (popReady_iff s).mp h
  exact ⟨_, _, (pop_ok_iff s _ _).mpr ⟨ho, hm, rfl, rfl⟩⟩

/-! ## Every shape goes on -/

/-- The outcome is a next state. -/
def GoesOn (r : Result) : Prop := ∃ t, r = .next t

theorem goesOn_of_ok {s : State} {next : Word} {r : Except Stop State} (h : ∃ t, r = .ok t) :
    GoesOn (settle s next r) := by
  obtain ⟨t, rfl⟩ := h
  exact ⟨t, rfl⟩

section UsableStack

variable {s : State} (h : trapReady s = true)

include h

theorem goesOn_oddAccess (next : Word) : GoesOn (settle s next (.error oddAccess)) :=
  takeException_completes h (.memoryViolation .oddAddress) next

theorem goesOn_load (rd : Reg) (x : Operand) : GoesOn (load rd x s) := by
  obtain ⟨hm, -⟩ := (trapReady_iff s).mp h
  rcases operandReady_or_odd hm x with hready | ⟨ea, rfl, hw, ho⟩
  · exact ⟨_, load_ready hready rd⟩
  · exact load_odd hw ho rd ▸ goesOn_oddAccess h _

theorem goesOn_store (rd : Reg) {x : MemEa}
    (hrom : eaReady x s = true → romTouched (memWidth x) (memAddr x s).toNat s = false) : GoesOn (store rd x s) := by
  obtain ⟨hm, -⟩ := (trapReady_iff s).mp h
  rcases eaReady_or_odd hm x with hready | ⟨hw, ho⟩
  · exact ⟨_, store_ready hready (hrom hready) rd⟩
  · exact store_odd hw ho rd ▸ goesOn_oddAccess h _

theorem goesOn_alu {op : AluOp} {rd : Reg} (hrd : ¬(writesRd op = true ∧ rd = .flag)) (x : Operand) :
    GoesOn (alu op rd x s) := by
  obtain ⟨hm, -⟩ := (trapReady_iff s).mp h
  rcases operandReady_or_odd hm x with hready | ⟨ea, rfl, hw, ho⟩
  · simp only [alu, aluBody, if_neg hrd, operandValue_ok hready]
    split
    case isTrue => exact takeException_completes h .zeroDivide _
    case isFalse => exact ⟨_, rfl⟩
  · exact alu_odd hw ho hrd ▸ goesOn_oddAccess h _

/-- What uses the stack in use goes on when it does with that stack's pointer even: at an odd one it stops at its push
or pop (20_memory.md R54). -/
theorem goesOn_stack {r : Result} {next : Word} (hready : popReady s = true → GoesOn r)
    (hodd : isOdd (readReg .sp s) = true → r = settle s next (.error oddAccess)) : GoesOn r := by
  obtain ⟨hm, -⟩ := (trapReady_iff s).mp h
  rcases popReady_or_odd hm with heven | ho
  · exact hready heven
  · exact hodd ho ▸ goesOn_oddAccess h next

theorem goesOn_call (hslot : popReady s = true → pushReady s = true) (x : JumpEa) : GoesOn (call x s) := by
  refine goesOn_stack h (fun hready => ?_) fun ho => call_odd ho x
  obtain ⟨t, ht⟩ := push_ready (hslot hready) (s.pc + 4)
  exact goesOn_of_ok ⟨_, (callBody_ok_iff x s _).mpr ⟨t, ht, rfl⟩⟩

theorem goesOn_pushReg {rd : Reg} (hn : namesStackPointer rd s = false)
    (hslot : popReady s = true → pushReady s = true) : GoesOn (pushReg rd s) := by
  refine goesOn_stack h (fun hready => ?_) fun ho => pushReg_odd ho hn
  obtain ⟨t, ht⟩ := push_ready (hslot hready) (readReg rd s)
  exact goesOn_of_ok ⟨_, (pushBody_ok_iff rd s _).mpr ⟨hn, t, ht, rfl⟩⟩

theorem goesOn_popReg {rd : Reg} (hn : namesStackPointer rd s = false) : GoesOn (popReg rd s) := by
  refine goesOn_stack h (fun hready => ?_) fun ho => popReg_odd ho hn
  obtain ⟨v, t, ht⟩ := pop_ready hready
  exact goesOn_of_ok ⟨_, (popBody_ok_iff rd s _).mpr ⟨hn, v, t, ht, rfl⟩⟩

theorem goesOn_returnFromCall : GoesOn (returnFromCall s) := by
  refine goesOn_stack h (fun hready => ?_) returnFromCall_odd
  obtain ⟨v, t, ht⟩ := pop_ready hready
  exact goesOn_of_ok ⟨_, (retBody_ok_iff s _).mpr ⟨v, t, ht, rfl⟩⟩

theorem goesOn_returnFromTrap : GoesOn (returnFromTrap s) := by
  refine goesOn_stack h (fun hready => ?_) returnFromTrap_odd
  obtain ⟨hm, ho⟩ := (popReady_iff s).mp hready
  exact goesOn_of_ok ⟨_, (reti_ok_iff s _).mpr ⟨ho, hm, rfl⟩⟩

/-- Without the privilege IN and OUT take the exception before the address is looked at (44_io.md R183). -/
theorem goesOn_input (rd : Reg) {x : IoEa} (hio : ioAllowed s = true → ioReady x s = true) :
    GoesOn (input rd x s) := by
  cases hp : ioAllowed s with
  | false =>
    simp only [input, inputBody, hp, Bool.false_eq_true, if_false]
    exact takeException_completes h .privilegeViolation _
  | true =>
    obtain ⟨-, hr⟩ := (ioReady_iff x s).mp (hio hp)
    exact goesOn_of_ok ⟨_, (inputBody_ok_iff rd x s _).mpr ⟨hp, hr, rfl⟩⟩

theorem goesOn_output {rd : Reg} {x : IoEa} (hio : ioAllowed s = true → ioReady x s = true)
    (hre : ioAllowed s = true → reattaches x (readReg rd s) s = false) : GoesOn (output rd x s) := by
  cases hp : ioAllowed s with
  | false =>
    simp only [output, outputBody, hp, Bool.false_eq_true, if_false]
    exact takeException_completes h .privilegeViolation _
  | true =>
    obtain ⟨u, hu⟩ := ioWriteBytes_completes (hio hp) (hre hp)
    exact ⟨_, output_written (hio hp) hu⟩

theorem goesOn_halt : GoesOn (halt s) := by
  unfold halt
  split
  case isTrue => exact ⟨_, rfl⟩
  case isFalse => exact takeException_completes h .privilegeViolation _

end UsableStack

end Sys2Proof.Machine
end

section
/-! NO, LD and ST, and that every instruction goes on: the statements about 40_no_load_store.md. -/

namespace Sys2Proof.Machine

/-- Settles O17; the whole frame is that of `writeReg`. -/
theorem loadPutsTheOperandInItsRegister : Obligations.LoadPutsTheOperandInItsRegister := by
  intro rd x s h
  refine ⟨loaded rd x s, (exec_ofLd rd x s).trans (load_ready h rd), fun q hq => ?value, fun q hq => ?regs,
    flag_writeReg rd _ s, rfl, bytesKept_writeReg rd _ s, systemKept_writeReg rd _ s⟩
  case value => rw [loaded, physRead_setPc, physRead_writeReg, if_pos hq]
  case regs => exact (physRead_setPc q _ _).trans (regsKeptBut_writeReg rd _ s q hq)

/-- Settles O18, by the width of the form. -/
theorem storeWritesItsBytesOnly : Obligations.StoreWritesItsBytesOnly := by
  intro rd x s h hr
  refine ⟨stored rd x s, (exec_ofSt rd x s).trans (store_ready h hr rd), fun hw => ?word, fun hw => ?byte,
    fun q _ => ?regs, rfl, rfl, rfl, rfl, rfl, rfl⟩
  case word =>
    have hbyte := byteAt_stored_word hw hr rd
    refine ⟨?_, ?_, fun a ha ha' => ?_⟩
    · simp [hbyte]
    · simp [hbyte]
    · simp [hbyte, ha, ha']
  case byte =>
    have hbyte := byteAt_stored_byte hw hr rd
    refine ⟨?_, fun a ha => ?_⟩
    · simp [hbyte]
    · simp [hbyte, ha]
  case regs => rw [stored, physRead_setPc, physRead_setMem]

/-- Settles O19: the address is even in both states, and the loaded operand is the stored word
(`operandWord_stored`). -/
theorem loadAfterStoreGivesTheValue : Obligations.LoadAfterStoreGivesTheValue := by
  intro rs rd x y s t h hr hx hy hrd hst ha
  rw [exec_ofSt, store_ready h hr rs] at hst
  cases hst
  obtain ⟨ho, hm⟩ := (eaReady_iff x s).mp h
  have hready : operandReady (.mem y) (stored rs x s) = true :=
    (eaReady_iff y _).mpr ⟨fun _ => ha ▸ ho hx, hm⟩
  refine ⟨loaded rd (.mem y) (stored rs x s), (exec_ofLd rd _ _).trans (load_ready hready rd), ?_⟩
  rw [loaded, readReg_setPc, readReg_writeReg_same hrd, operandWord_stored hx hy hr ha]

/-- Settles O59, shape by shape: `givenNoMeaning` leaves out each shape's refusals. -/
theorem everyInstructionGoesOn : Obligations.EveryInstructionGoesOn := by
  intro i s h hmean
  rw [exec_eq_performForm]
  unfold givenNoMeaning at hmean
  cases hf : i.form with
  | no => exact ⟨_, rfl⟩
  | ld rd x => exact goesOn_load h rd x
  | st rd x => exact goesOn_store h rd (by simpa [hf] using hmean)
  | alu op rd x => exact goesOn_alu h (by simpa [hf] using hmean) x
  | jump cond x => exact ⟨_, rfl⟩
  | call x => exact goesOn_call h (by simpa [hf] using hmean) x
  | inp rd x => exact goesOn_input h rd (by simpa [hf] using hmean)
  | out rd x =>
    have hout : ioAllowed s = true → ioReady x s = true ∧ reattaches x (readReg rd s) s = false := by
      simpa [hf] using hmean
    exact goesOn_output h (fun hp => (hout hp).1) fun hp => (hout hp).2
  | push rd =>
    obtain ⟨hn, hslot⟩ : namesStackPointer rd s = false ∧ (popReady s = true → pushReady s = true) := by
      simpa [hf] using hmean
    exact goesOn_pushReg h hn hslot
  | pop rd => exact goesOn_popReg h (by simpa [hf] using hmean)
  | ret => exact goesOn_returnFromCall h
  | reti => exact goesOn_returnFromTrap h
  | svc => exact takeException_completes h .supervisorCall _
  | halt => exact goesOn_halt h

/-- Settles O16: the words 00xyh are O8's, the word 0000h is NO's own by O4. -/
theorem noOperationOnlyAdvancesPc : Obligations.NoOperationOnlyAdvancesPc := by
  refine ⟨rfl, fun s => rfl, fun w w2 hop hw => ?refused, fun _ _ => rfl, fun s hready hword => ?step⟩
  case refused =>
    have hfields : rdField w ≠ 0 ∨ rxField w ≠ 0 := by
      by_contra hnone
      obtain ⟨hrd, hrx⟩ : rdField w = 0 ∧ rxField w = 0 := by simpa [not_or] using hnone
      exact hw ((word_eq_firstWord w).trans (by rw [hop, hrd, hrx]; rfl))
    obtain ⟨-, -, -, -, -, hboth, -⟩ := refusedWordsAreRefused w w2
    exact hboth (.inl (congrArg BitVec.toNat hop)) hfields
  case step =>
    obtain ⟨hno, -⟩ := decodeOfEncodeIsTheInstruction .no (secondWord s) rfl
    have hdec : decode (wordAt s s.pc) (secondWord s) = .instr .no := by rw [hword]; exact hno
    exact step_instr hready hdec

end Sys2Proof.Machine
end

section
/-! SUPPORT. What a flag-changing instruction answers: its result where the operand can be read, ZeroDivide, or the
refusal of FLAG as its destination (41_arith_logic.md R130, R139, R140, 42_shift.md R150), and the refusals of the stack
pointer in use (45_stack_return.md R186, R187). -/

namespace Sys2Proof.Machine

/-! ## Where a flag-changing instruction completes -/

/-- The state after a flag-changing instruction with a readable operand (41_arith_logic.md R130). -/
def computed (op : AluOp) (rd : Reg) (x : Operand) (s : State) : State :=
  (aluApply op rd (operandWord x s) s).setPc (s.pc + operandBytes x)

theorem alu_ready {op : AluOp} {rd : Reg} {x : Operand} {s : State} (hrd : ¬(writesRd op = true ∧ rd = .flag))
    (h : operandReady x s = true) (hz : ¬(divides op = true ∧ operandWord x s = 0)) :
    alu op rd x s = .next (computed op rd x s) := by
  simp only [alu, aluBody, if_neg hrd, operandValue_ok h, if_neg hz, settle_ok, computed]

theorem exec_computed {rd : Reg} {x : Operand} {s : State} (hrd : rd ≠ .flag) (h : operandReady x s = true)
    {op : AluOp} (hz : divides op = true → operandWord x s ≠ 0) :
    exec (.ofAlu op rd x) s = .next (computed op rd x s) :=
  (exec_ofAlu op rd x s).trans (alu_ready (fun hflag => hrd hflag.2) h fun hzero => hz hzero.1 hzero.2)

theorem computed_of_writesRd {op : AluOp} (hw : writesRd op = true) (rd : Reg) (x : Operand) (s : State) :
    computed op rd x s =
      ((writeReg rd (aluResult op (readReg rd s) (operandWord x s)) s).setFlag
        (aluFlags op (readReg rd s) (operandWord x s) s.flag)).setPc (s.pc + operandBytes x) := by
  rw [computed, aluApply, if_pos hw]

theorem computed_cmp (rd : Reg) (x : Operand) (s : State) :
    computed .cmp rd x s =
      (s.setFlag (aluFlags .cmp (readReg rd s) (operandWord x s) s.flag)).setPc (s.pc + operandBytes x) := rfl

/-- Z is set exactly by the result 0 (10_state.md R34). -/
theorem aluFlags_z_iff (op : AluOp) (a b : Word) (f : Flags) :
    (aluFlags op a b f).z = true ↔ (aluResult op a b).toNat = 0 := by
  simp [aluFlags, BitVec.toNat_eq]

/-- S is the result's bit 15 (10_state.md R34). -/
theorem aluFlags_s (op : AluOp) (a b : Word) (f : Flags) : (aluFlags op a b f).s = (aluResult op a b).getLsbD 15 :=
  BitVec.msb_eq_getLsbD_last (aluResult op a b)

theorem resultAndFrame_computed {op : AluOp} (hw : writesRd op = true) (rd : Reg) (x : Operand) (s : State) :
    ResultAndFrame rd x (aluResult op (readReg rd s) (operandWord x s)) s (computed op rd x s) := by
  rw [computed_of_writesRd hw]
  refine ⟨fun q hq => ?value, fun q hq => ?regs, aluFlags_z_iff op _ _ _, aluFlags_s op _ _ _, ⟨rfl, rfl, rfl⟩, rfl,
    bytesKept_writeReg rd _ s, systemKept_writeReg rd _ s⟩
  case value => rw [physRead_setPc, physRead_setFlag, physRead_writeReg, if_pos hq]
  case regs => rw [physRead_setPc, physRead_setFlag, regsKeptBut_writeReg rd _ s q hq]

/-! ## Where it does not -/

theorem alu_divideByZero {op : AluOp} {rd : Reg} {x : Operand} {s : State} (hrd : rd ≠ .flag)
    (h : operandReady x s = true) (hop : divides op = true) (hz : operandWord x s = 0) :
    alu op rd x s = takeException .zeroDivide (s.pc + operandBytes x) s := by
  have hflag : ¬(writesRd op = true ∧ rd = .flag) := fun hw => hrd hw.2
  simp only [alu, aluBody, if_neg hflag, operandValue_ok h, if_pos (And.intro hop hz), settle_exc]

theorem writesRd_of_ne_cmp {op : AluOp} (h : op ≠ .cmp) : writesRd op = true := by
  cases op with
  | cmp => exact absurd rfl h
  | _ => rfl

theorem alu_flagDestination {op : AluOp} (hw : writesRd op = true) (x : Operand) (s : State) :
    alu op .flag x s = .refused .flagDestination := by
  rw [alu, aluBody, if_pos ⟨hw, rfl⟩, settle_refuse]

theorem exec_push_stackPointer {rd : Reg} {s : State} (h : namesStackPointer rd s = true) :
    exec (.push rd) s = .refused .stackPointerOperand := by
  rw [exec_eq_performForm]
  simp only [Instr.form, performForm, pushReg, pushBody, if_pos h, settle_refuse]

theorem exec_pop_stackPointer {rd : Reg} {s : State} (h : namesStackPointer rd s = true) :
    exec (.pop rd) s = .refused .stackPointerOperand := by
  rw [exec_eq_performForm]
  simp only [Instr.form, performForm, popReg, popBody, if_pos h, settle_refuse]

end Sys2Proof.Machine
end

section
/-! SUPPORT. The results, C and V as arithmetic over the operands' unsigned and signed values (41_arith_logic.md R131 to
R140). -/

namespace Sys2Proof.Machine

section Values

variable (a b : Word)

theorem toNat_aluResult_add : (aluResult .add a b).toNat = (a.toNat + b.toNat) % 65536 := BitVec.toNat_add a b

theorem toNat_aluResult_sub : (aluResult .sub a b).toNat = (a.toNat + 65536 - b.toNat) % 65536 := by
  have hb := b.isLt
  simp only [aluResult, BitVec.toNat_sub]
  omega

theorem toNat_aluResult_adds : (aluResult .adds a b).toNat = (a.toNat + 2 * b.toNat) % 65536 := by
  have htwo : (2 : Word).toNat = 2 := rfl
  simp only [aluResult, BitVec.toNat_add, BitVec.toNat_mul, htwo]
  omega

theorem toNat_aluResult_mul : (aluResult .mul a b).toNat = (a.toNat * b.toNat) % 65536 := BitVec.toNat_mul a b

/-- The low half of the product is the same for signed operands (41_arith_logic.md R138). -/
theorem aluResult_mul_signed : aluResult .mul a b = BitVec.ofInt 16 (a.toInt * b.toInt) := by
  rw [BitVec.ofInt_mul, BitVec.ofInt_toInt, BitVec.ofInt_toInt]
  rfl

/-- V of ADD: the signed sum does not fit (41_arith_logic.md R131). -/
theorem aluOverflow_add_iff :
    aluOverflow .add a b = true ↔ a.toInt + b.toInt < -32768 ∨ 32767 < a.toInt + b.toInt := by
  have hv : aluOverflow .add a b = a.saddOverflow b := (BitVec.saddOverflow_eq a b).symm
  simp only [hv, BitVec.saddOverflow, Bool.or_eq_true, decide_eq_true_iff]
  omega

/-- V of SUB and CMP: the signed difference does not fit (41_arith_logic.md R132, R133). -/
theorem aluOverflow_sub_iff :
    aluOverflow .sub a b = true ↔ a.toInt - b.toInt < -32768 ∨ 32767 < a.toInt - b.toInt := by
  have hv : aluOverflow .sub a b = a.ssubOverflow b := by
    rw [BitVec.ssubOverflow_eq, aluOverflow]
    cases a.msb <;> cases b.msb <;> cases (a - b).msb <;> rfl
  simp only [hv, BitVec.ssubOverflow, Bool.or_eq_true, decide_eq_true_iff]
  omega

theorem aluCarry_add_iff : aluCarry .add a b = true ↔ 65536 ≤ a.toNat + b.toNat := decide_eq_true_iff

theorem aluCarry_sub_iff : aluCarry .sub a b = true ↔ a.toNat < b.toNat := decide_eq_true_iff

theorem divisionFixed_iff : divisionFixed a b = true ↔ a.toNat ≤ 0x7FFF ∧ b.toNat ≤ 0x7FFF := by
  simp [divisionFixed]

end Values

section Division

variable {a b : Word}

theorem toNat_aluResult_div (h : a.toNat ≤ 0x7FFF ∧ b.toNat ≤ 0x7FFF) :
    (aluResult .div a b).toNat = a.toNat / b.toNat := by
  rw [aluResult, if_pos ((divisionFixed_iff a b).mpr h), BitVec.toNat_udiv]

theorem aluResult_div_open (h : ¬(a.toNat ≤ 0x7FFF ∧ b.toNat ≤ 0x7FFF)) : aluResult .div a b = Config.divFn a b := by
  rw [aluResult, if_neg (mt (divisionFixed_iff a b).mp h)]

theorem toNat_aluResult_mod (h : a.toNat ≤ 0x7FFF ∧ b.toNat ≤ 0x7FFF) :
    (aluResult .mod a b).toNat = a.toNat % b.toNat := by
  rw [aluResult, if_pos ((divisionFixed_iff a b).mpr h), BitVec.toNat_umod]

theorem aluResult_mod_open (h : ¬(a.toNat ≤ 0x7FFF ∧ b.toNat ≤ 0x7FFF)) : aluResult .mod a b = Config.modFn a b := by
  rw [aluResult, if_neg (mt (divisionFixed_iff a b).mp h)]

end Division

end Sys2Proof.Machine
end

section
/-! Arithmetic and logic: the statements about 41_arith_logic.md, and the register operands given no meaning. -/

namespace Sys2Proof.Machine

/-- Settles O21; V is `aluOverflow_add_iff`. -/
theorem addGivesTheSumAndItsFlags : Obligations.AddGivesTheSumAndItsFlags := by
  intro rd x s hrd h a b
  exact ⟨computed .add rd x s, aluResult .add a b, exec_computed hrd h nofun, resultAndFrame_computed rfl rd x s,
    toNat_aluResult_add a b, aluCarry_add_iff a b, aluOverflow_add_iff a b⟩

/-- Settles O22; V is `aluOverflow_sub_iff`. -/
theorem subGivesTheDifferenceAndItsFlags : Obligations.SubGivesTheDifferenceAndItsFlags := by
  intro rd x s hrd h a b
  exact ⟨computed .sub rd x s, aluResult .sub a b, exec_computed hrd h nofun, resultAndFrame_computed rfl rd x s,
    toNat_aluResult_sub a b, aluCarry_sub_iff a b, aluOverflow_sub_iff a b⟩

/-- Settles O23: only FLAG and PC change (`computed_cmp`), and C and V are SUB's. -/
theorem compareSetsTheFlagsOnly : Obligations.CompareSetsTheFlagsOnly := by
  intro rd x s h a b
  have hexec : exec (.ofAlu .cmp rd x) s = .next (computed .cmp rd x s) :=
    (exec_ofAlu .cmp rd x s).trans (alu_ready (fun hw => nomatch hw.1) h fun hz => nomatch hz.1)
  refine ⟨computed .cmp rd x s, hexec, fun q _ => ?regs, ?z, aluFlags_s .cmp a b s.flag, aluCarry_sub_iff a b,
    aluOverflow_sub_iff a b, ⟨rfl, rfl, rfl⟩, rfl, fun _ => rfl, rfl, rfl, rfl, rfl⟩
  case regs => rw [computed_cmp, physRead_setPc, physRead_setFlag]
  case z => exact beq_iff_eq.trans sub_eq_zero

/-- Settles O24, operation by operation. -/
theorem logicWorksBitByBit : Obligations.LogicWorksBitByBit := by
  intro rd x s hrd h a b op f hop
  rcases hop with ⟨rfl, rfl⟩ | ⟨rfl, rfl⟩ | ⟨rfl, rfl⟩
  case inl =>
    exact ⟨_, _, exec_computed hrd h nofun, resultAndFrame_computed rfl rd x s, fun _ => BitVec.getLsbD_and, rfl, rfl⟩
  case inr.inl =>
    exact ⟨_, _, exec_computed hrd h nofun, resultAndFrame_computed rfl rd x s, fun _ => BitVec.getLsbD_or, rfl, rfl⟩
  case inr.inr =>
    exact ⟨_, _, exec_computed hrd h nofun, resultAndFrame_computed rfl rd x s, fun _ => BitVec.getLsbD_xor, rfl, rfl⟩

/-- Settles O25. -/
theorem scaledAddAndMultiplyWrap : Obligations.ScaledAddAndMultiplyWrap := by
  intro rd x s hrd h a b
  constructor
  · exact ⟨computed .adds rd x s, aluResult .adds a b, exec_computed hrd h nofun, resultAndFrame_computed rfl rd x s,
      toNat_aluResult_adds a b, rfl, rfl⟩
  · exact ⟨computed .mul rd x s, aluResult .mul a b, exec_computed hrd h nofun, resultAndFrame_computed rfl rd x s,
      toNat_aluResult_mul a b, aluResult_mul_signed a b, rfl, rfl⟩

/-- Settles O26, by whether both operands lie up to 7FFFh. -/
theorem divisionIsExactWhereSignsAgree : Obligations.DivisionIsExactWhereSignsAgree := by
  intro rd x s hrd h hb a b
  constructor
  · exact ⟨computed .div rd x s, aluResult .div a b, exec_computed hrd h fun _ => hb,
      resultAndFrame_computed rfl rd x s, toNat_aluResult_div, aluResult_div_open, rfl, rfl⟩
  · exact ⟨computed .mod rd x s, aluResult .mod a b, exec_computed hrd h fun _ => hb,
      resultAndFrame_computed rfl rd x s, toNat_aluResult_mod, aluResult_mod_open, rfl, rfl⟩

/-- Settles O27: both stop with ZeroDivide (`alu_divideByZero`), which records nothing in the MMU's registers. -/
theorem divisionByZeroTraps : Obligations.DivisionByZeroTraps := by
  intro rd x s hrd h hz hready
  have htraps : Traps (takeException .zeroDivide (s.pc + operandBytes x) s) 11 s.pc (s.pc + operandBytes x) s.mmu s :=
    takeException_traps hready .zeroDivide _
  constructor
  · rwa [exec_ofAlu, alu_divideByZero hrd h rfl hz]
  · rwa [exec_ofAlu, alu_divideByZero hrd h rfl hz]

/-- Settles O37, by the check each instruction begins with. -/
theorem registersWithoutMeaningAreRefused : Obligations.RegistersWithoutMeaningAreRefused := by
  refine ⟨fun op x s hop => ?flag, fun s => ⟨exec_push_stackPointer rfl, exec_pop_stackPointer rfl, fun hp => ?user⟩⟩
  case flag => rw [exec_ofAlu, alu_flagDestination (writesRd_of_ne_cmp hop)]
  case user =>
    have husp : namesStackPointer .usp s = true := by simp [namesStackPointer, hp]
    exact ⟨exec_push_stackPointer husp, exec_pop_stackPointer husp⟩

end Sys2Proof.Machine
end

section
/-! SUPPORT. The four shifts: their results as arithmetic over the operands' values for counts to 15, the open ones
for 16 and more (42_shift.md R150 to R154). -/

namespace Sys2Proof.Machine

section Counts

variable {b : Word}

theorem countFixed_of_le (h : b.toNat ≤ 15) : countFixed b = true := decide_eq_true h

theorem not_countFixed_of_lt (h : 15 < b.toNat) : ¬countFixed b = true :=
  fun hfixed => Nat.not_le_of_lt h (of_decide_eq_true hfixed)

/-- The two left shifts have the same result (42_shift.md R151, R152). -/
theorem toNat_aluResult_leftShift {op : AluOp} (hop : op = .shla ∨ op = .shll) (h : b.toNat ≤ 15) (a : Word) :
    (aluResult op a b).toNat = (a.toNat * 2 ^ b.toNat) % 65536 := by
  have hshift : aluResult op a b = a <<< b.toNat := by
    rcases hop with rfl | rfl
    · exact if_pos (countFixed_of_le h)
    · exact if_pos (countFixed_of_le h)
  rw [hshift, BitVec.toNat_shiftLeft, Nat.shiftLeft_eq]

/-- The right shift that keeps the sign is the floor of the signed quotient (42_shift.md R153). -/
theorem toInt_aluResult_shra (h : b.toNat ≤ 15) (a : Word) :
    (aluResult .shra a b).toInt = a.toInt / 2 ^ b.toNat := by
  rw [aluResult, if_pos (countFixed_of_le h), BitVec.toInt_sshiftRight, Int.shiftRight_eq_div_pow, Nat.cast_pow,
    Nat.cast_ofNat]

theorem toNat_aluResult_shrl (h : b.toNat ≤ 15) (a : Word) :
    (aluResult .shrl a b).toNat = a.toNat / 2 ^ b.toNat := by
  rw [aluResult, if_pos (countFixed_of_le h), BitVec.toNat_ushiftRight, Nat.shiftRight_eq_div_pow]

end Counts

section Shifts

variable {op : AluOp} (hop : op = .shla ∨ op = .shll ∨ op = .shra ∨ op = .shrl)
include hop

/-- SHLA shares SHLL's open result (D18, D19). -/
theorem aluResult_shift_open (a : Word) {b : Word} (h : 15 < b.toNat) :
    aluResult op a b = Config.shiftFn (if op = .shla then .shll else op) a b := by
  have hcount : ¬countFixed b = true := not_countFixed_of_lt h
  rcases hop with rfl | rfl | rfl | rfl
  case inl => exact if_neg hcount
  case inr.inl => exact if_neg hcount
  case inr.inr.inl => exact if_neg hcount
  case inr.inr.inr => exact if_neg hcount

theorem shift_writesRd : writesRd op = true := by
  rcases hop with rfl | rfl | rfl | rfl <;> rfl

theorem shift_divides : divides op = false := by
  rcases hop with rfl | rfl | rfl | rfl <;> rfl

theorem aluCarry_shift (a b : Word) : aluCarry op a b = Config.flagC op a b := by
  rcases hop with rfl | rfl | rfl | rfl <;> rfl

theorem aluOverflow_shift (a b : Word) : aluOverflow op a b = Config.flagV op a b := by
  rcases hop with rfl | rfl | rfl | rfl <;> rfl

theorem exec_shift {rd : Reg} {x : Operand} {s : State} (hrd : rd ≠ .flag) (h : operandReady x s = true) :
    exec (.ofAlu op rd x) s = .next (computed op rd x s) :=
  exec_computed hrd h fun hdiv => absurd hdiv (Bool.eq_false_iff.mp (shift_divides hop))

end Shifts

theorem computed_flag {op : AluOp} (hw : writesRd op = true) (rd : Reg) (x : Operand) (s : State) :
    (computed op rd x s).flag = aluFlags op (readReg rd s) (operandWord x s) s.flag := by
  rw [computed_of_writesRd hw]
  rfl

end Sys2Proof.Machine
end

section
/-! Shifts: the statement about 42_shift.md. -/

namespace Sys2Proof.Machine

/-- Settles O28: what the four shifts share is said of all four at once, the results for counts to 15 each by its own
rule. -/
theorem shiftsGiveTheirResults : Obligations.ShiftsGiveTheirResults := by
  intro rd x s hrd h a n op hop
  have hw : writesRd op = true := shift_writesRd hop
  have hflag : (computed op rd x s).flag = aluFlags op a (operandWord x s) s.flag := computed_flag hw rd x s
  refine ⟨computed op rd x s, aluResult op a (operandWord x s), exec_shift hop hrd h,
    resultAndFrame_computed hw rd x s, ?c, ?v, fun hn => ⟨?left, ?shra, ?shrl⟩, aluResult_shift_open hop a⟩
  case c => rw [hflag]; exact aluCarry_shift hop _ _
  case v => rw [hflag]; exact aluOverflow_shift hop _ _
  case left => exact fun hleft => toNat_aluResult_leftShift hleft hn a
  case shra => rintro rfl; exact toInt_aluResult_shra hn a
  case shrl => rintro rfl; exact toNat_aluResult_shrl hn a

end Sys2Proof.Machine
end

section
/-! SUPPORT. The fifteen jumps: their words, where each goes, and what each condition says of the flags
(43_jump_call.md R160 to R175). -/

namespace Sys2Proof.Machine

/-! ## Words and effect -/

theorem encode_ofJump (cond : Cond) (x : JumpEa) :
    encode (.ofJump cond x) = encodeEa 0xA0 cond.toField x.toMemEa := by
  rw [encode, form_ofJump]
  rfl

theorem exec_jump_taken {cond : Cond} {s : State} (h : condHolds cond s.flag = true) (x : JumpEa) :
    exec (.ofJump cond x) s = .next (s.setPc (jumpTarget x s)) := by
  rw [exec_ofJump, jump, if_pos h]

theorem exec_jump_not_taken {cond : Cond} {s : State} (h : ¬condHolds cond s.flag = true) (x : JumpEa) :
    exec (.ofJump cond x) s = .next (s.setPc (s.pc + 4)) := by
  rw [exec_ofJump, jump, if_neg h]

/-- A jump follows its rule once its condition is known to say `holds` of the flags. -/
theorem jumpRule_of_condHolds_iff {cond : Cond} {holds : Flags → Prop}
    (h : ∀ f, condHolds cond f = true ↔ holds f) : JumpRule cond cond.toField holds := by
  refine ⟨fun d => encode_ofJump cond (.direct d), fun d rx => encode_ofJump cond (.indexed d rx),
    fun s => ⟨fun hs => ?taken, fun hs => ?notTaken⟩⟩
  case taken =>
    have hcond : condHolds cond s.flag = true := (h s.flag).mpr hs
    exact ⟨fun d => exec_jump_taken hcond (.direct d), fun d rx => exec_jump_taken hcond (.indexed d rx)⟩
  case notTaken => exact exec_jump_not_taken (mt (h s.flag).mp hs)

/-! ## Conditions -/

section Conditions

variable (f : Flags)

theorem condHolds_nz_iff : condHolds .nz f = true ↔ f.z = false := by simp [condHolds]

theorem condHolds_nc_iff : condHolds .nc f = true ↔ f.c = false := by simp [condHolds]

theorem condHolds_nm_iff : condHolds .nm f = true ↔ f.s = false := by simp [condHolds]

theorem condHolds_no_iff : condHolds .no f = true ↔ f.v = false := by simp [condHolds]

theorem condHolds_lt_iff : condHolds .lt f = true ↔ f.s ≠ f.v := by simp [condHolds]

theorem condHolds_ge_iff : condHolds .ge f = true ↔ f.s = f.v := by simp [condHolds]

theorem condHolds_le_iff : condHolds .le f = true ↔ f.z = true ∨ f.s ≠ f.v := by simp [condHolds]

theorem condHolds_gt_iff : condHolds .gt f = true ↔ f.z = false ∧ f.s = f.v := by simp [condHolds]

theorem condHolds_ls_iff : condHolds .ls f = true ↔ f.z = true ∨ f.c = true := by simp [condHolds]

theorem condHolds_hi_iff : condHolds .hi f = true ↔ f.z = false ∧ f.c = false := by simp [condHolds]

end Conditions

/-- Of two opposite conditions one tests the negation of what the other tests. -/
theorem condHolds_opposite_iff {cond opp : Cond} {f : Flags} {p : Prop}
    (hopp : condHolds opp f = !condHolds cond f) (hcond : condHolds cond f = true ↔ p) :
    condHolds opp f = true ↔ ¬p := by
  rw [hopp, ← hcond, Bool.not_eq_true', Bool.not_eq_true]

end Sys2Proof.Machine
end

section
/-! SUPPORT. What the flags of a difference say of its two operands (41_arith_logic.md R132, R133, 43_jump_call.md
R177). -/

namespace Sys2Proof.Machine

/-- CMP, and SUB to a register other than FLAG, leave the same FLAG: that of the difference. -/
theorem exec_compare {op : AluOp} {rd : Reg} {x : Operand} {s : State} (hop : op = .cmp ∨ (op = .sub ∧ rd ≠ .flag))
    (h : operandReady x s = true) :
    ∃ t, exec (.ofAlu op rd x) s = .next t ∧ t.flag = aluFlags .sub (readReg rd s) (operandWord x s) s.flag := by
  rcases hop with rfl | ⟨rfl, hrd⟩
  case inl =>
    have hexec : exec (.ofAlu .cmp rd x) s = .next (computed .cmp rd x s) :=
      (exec_ofAlu .cmp rd x s).trans (alu_ready (fun hw => nomatch hw.1) h fun hz => nomatch hz.1)
    exact ⟨_, hexec, rfl⟩
  case inr => exact ⟨_, exec_computed hrd h nofun, computed_flag rfl rd x s⟩

section Difference

variable (a b : Word) (f : Flags)

/-- The signed value of the difference, brought back into range by at most one turn of 65536. -/
theorem toInt_sub_cases :
    (a - b).toInt = a.toInt - b.toInt ∧ -32768 ≤ a.toInt - b.toInt ∧ a.toInt - b.toInt ≤ 32767 ∨
      (a - b).toInt = a.toInt - b.toInt - 65536 ∧ 32767 < a.toInt - b.toInt ∧ a.toInt - b.toInt < 65536 ∨
      (a - b).toInt = a.toInt - b.toInt + 65536 ∧ -65536 < a.toInt - b.toInt ∧ a.toInt - b.toInt < -32768 := by
  have hsub : (a - b).toInt = (a.toInt - b.toInt).bmod 65536 := BitVec.toInt_sub
  have ha := a.toInt_lt
  have ha' := a.le_toInt
  have hb := b.toInt_lt
  have hb' := b.le_toInt
  rw [hsub, Int.bmod_def]
  omega

/-- S of the difference is the sign of its signed value. -/
theorem aluFlags_sub_s_iff : (aluFlags .sub a b f).s = true ↔ (a - b).toInt < 0 := by
  rw [aluFlags, aluResult, BitVec.msb_eq_toInt, decide_eq_true_iff]

/-- The sign is that of the true difference unless it overflowed, and then the opposite one. -/
theorem condHolds_lt_sub : condHolds .lt (aluFlags .sub a b f) = true ↔ a.toInt < b.toInt := by
  have hs := aluFlags_sub_s_iff a b f
  have hv : (aluFlags .sub a b f).v = true ↔ _ := aluOverflow_sub_iff a b
  have hcases := toInt_sub_cases a b
  rw [condHolds_lt_iff, Ne, Bool.eq_iff_iff, hs, hv]
  omega

theorem condHolds_z_sub : condHolds .z (aluFlags .sub a b f) = true ↔ a = b := beq_iff_eq.trans sub_eq_zero

theorem condHolds_c_sub : condHolds .c (aluFlags .sub a b f) = true ↔ a.toNat < b.toNat := aluCarry_sub_iff a b

theorem condHolds_le_sub : condHolds .le (aluFlags .sub a b f) = true ↔ a.toInt ≤ b.toInt := by
  have hle : condHolds .le (aluFlags .sub a b f) = true ↔
      condHolds .z (aluFlags .sub a b f) = true ∨ condHolds .lt (aluFlags .sub a b f) = true := Bool.or_eq_true_iff
  rw [hle, condHolds_z_sub, condHolds_lt_sub, ← BitVec.toInt_inj, le_iff_eq_or_lt]

theorem condHolds_ls_sub : condHolds .ls (aluFlags .sub a b f) = true ↔ a.toNat ≤ b.toNat := by
  have hls : condHolds .ls (aluFlags .sub a b f) = true ↔
      condHolds .z (aluFlags .sub a b f) = true ∨ condHolds .c (aluFlags .sub a b f) = true := Bool.or_eq_true_iff
  rw [hls, condHolds_z_sub, condHolds_c_sub, ← BitVec.toNat_inj, le_iff_eq_or_lt]

end Difference

end Sys2Proof.Machine
end

section
/-! SUPPORT. What a push leaves, and where CALL and RET go (45_stack_return.md R185, R189, 43_jump_call.md R176). -/

namespace Sys2Proof.Machine

/-! ## Pushing -/

/-- The state with a word stored in the slot below SP, before SP moves (45_stack_return.md R185). -/
def slotStored (v : Word) (s : State) : State := s.setMem (storeBytes .word (readReg .sp s - 2).toNat v s.mem)

/-- The state after a push that completes (45_stack_return.md R185). -/
def pushed (v : Word) (s : State) : State := writeReg .sp (readReg .sp s - 2) (slotStored v s)

theorem push_eq_pushed {s : State} (h : pushReady s = true) (v : Word) : push v s = .ok (pushed v s) := by
  obtain ⟨hm, ho, hr⟩ := (pushReady_iff s).mp h
  exact (push_ok_iff v s _).mpr ⟨ho, hm, hr, rfl⟩

theorem readReg_sp_writeReg_sp (v : Word) (s : State) : readReg .sp (writeReg .sp v s) = v :=
  readReg_writeReg_same (by decide) v s

/-- A push writes the two bytes below SP and the stack pointer that P selects, and nothing else. -/
theorem pushed_leaves {s : State} (h : pushReady s = true) (v : Word) : Pushed v s (pushed v s) := by
  obtain ⟨-, -, hr⟩ := (pushReady_iff s).mp h
  obtain ⟨hmem, hmmu, -⟩ := writeReg_keeps .sp (readReg .sp s - 2) (slotStored v s)
  refine ⟨wordAt_store hr hmem hmmu, readReg_sp_writeReg_sp _ _, fun a hhi hlo => ?bytes, fun q hq => ?regs,
    flag_writeReg .sp _ _, systemKept_writeReg .sp _ (slotStored v s)⟩
  case bytes =>
    calc byteAt (pushed v s) a = byteAt (slotStored v s) a := bytesKept_writeReg .sp _ _ a
      _ = byteAt s a := by rw [slotStored, byteAt_storeWord hr, if_neg hlo, if_neg hhi]
  case regs =>
    calc physRead q (pushed v s) = physRead q (slotStored v s) := regsKeptBut_writeReg .sp _ _ q hq
      _ = physRead q s := physRead_setMem q _ s

/-- What a push leaves does not speak of PC. -/
theorem pushed_setPc {v : Word} {s t : State} (h : Pushed v s t) (p : Word) : Pushed v s (t.setPc p) := by
  obtain ⟨hword, hsp, hbytes, hregs, hflag, hsystem⟩ := h
  exact ⟨hword, (readReg_setPc .sp p t).trans hsp, hbytes, fun q hq => (physRead_setPc q p t).trans (hregs q hq), hflag,
    hsystem⟩

/-! ## CALL and RET -/

theorem exec_call_ready {s : State} (h : pushReady s = true) (x : JumpEa) :
    exec (.ofCall x) s = .next ((pushed (s.pc + 4) s).setPc (jumpTarget x s)) := by
  simp only [exec_ofCall, call, callBody, push_eq_pushed h, settle_ok]

/-- The state after a RET that completes (45_stack_return.md R189). -/
def returned (s : State) : State := (writeReg .sp (readReg .sp s + 2) s).setPc (wordAt s (readReg .sp s))

theorem exec_ret_ready {s : State} (h : popReady s = true) : exec .ret s = .next (returned s) := by
  obtain ⟨hm, ho⟩ := (popReady_iff s).mp h
  have hpop : pop s = .ok (wordAt s (readReg .sp s), writeReg .sp (readReg .sp s + 2) s) :=
    (pop_ok_iff s _ _).mpr ⟨ho, hm, rfl, rfl⟩
  have hbody : retBody s = .ok (returned s) := (retBody_ok_iff s _).mpr ⟨_, _, hpop, rfl⟩
  rw [exec_eq_performForm]
  exact (settle_next_iff s (s.pc + 2) _ _).mpr (.inl hbody)

theorem readReg_sp_returned (s : State) : readReg .sp (returned s) = readReg .sp s + 2 := by
  rw [returned, readReg_setPc, readReg_sp_writeReg_sp]

/-- A stack that took a push can give it back: SP is as even as before and the MMU as off. -/
theorem popReady_of_pushed {s u : State} (h : pushReady s = true) (hmmu : u.mmu = s.mmu)
    (hsp : readReg .sp u = readReg .sp s - 2) : popReady u = true := by
  obtain ⟨hm, ho, -⟩ := (pushReady_iff s).mp h
  exact (popReady_iff u).mpr ⟨(mmuOn_congr hmmu).trans hm, by rw [hsp, isOdd_sub_two, ho]⟩

end Sys2Proof.Machine
end

section
/-! Jumps and calls: the statements about 43_jump_call.md. -/

namespace Sys2Proof.Machine

/-- Settles O29, by what each condition says of its flag. -/
theorem oneFlagJumpsFollowTheirFlag : Obligations.OneFlagJumpsFollowTheirFlag :=
  ⟨jumpRule_of_condHolds_iff (cond := .z) fun _ => Iff.rfl, jumpRule_of_condHolds_iff (cond := .c) fun _ => Iff.rfl,
    jumpRule_of_condHolds_iff (cond := .m) fun _ => Iff.rfl, jumpRule_of_condHolds_iff (cond := .o) fun _ => Iff.rfl,
    jumpRule_of_condHolds_iff condHolds_nz_iff, jumpRule_of_condHolds_iff condHolds_nc_iff,
    jumpRule_of_condHolds_iff condHolds_nm_iff, jumpRule_of_condHolds_iff condHolds_no_iff⟩

/-- Settles O30, by what each condition says of its flags. -/
theorem relationJumpsFollowTheirFlags : Obligations.RelationJumpsFollowTheirFlags :=
  ⟨jumpRule_of_condHolds_iff condHolds_gt_iff, jumpRule_of_condHolds_iff condHolds_ge_iff,
    jumpRule_of_condHolds_iff condHolds_le_iff, jumpRule_of_condHolds_iff condHolds_lt_iff,
    jumpRule_of_condHolds_iff condHolds_hi_iff, jumpRule_of_condHolds_iff condHolds_ls_iff,
    jumpRule_of_condHolds_iff (cond := .always) fun _ => iff_of_true rfl trivial⟩

/-- Settles O31: five relations are read off the flags of the difference, and the other five are their opposites. -/
theorem comparisonJumpsTestTheirRelation : Obligations.ComparisonJumpsTestTheirRelation := by
  intro op rd x s hop h a b
  obtain ⟨t, hexec, hflag⟩ := exec_compare hop h
  have hle := condHolds_le_sub a b s.flag
  have hlt := condHolds_lt_sub a b s.flag
  have hz := condHolds_z_sub a b s.flag
  have hls := condHolds_ls_sub a b s.flag
  have hc := condHolds_c_sub a b s.flag
  refine ⟨t, hexec, ?_⟩
  rw [hflag]
  exact ⟨(condHolds_opposite_iff rfl hle).trans not_le, (condHolds_opposite_iff rfl hlt).trans not_lt, hz,
    condHolds_opposite_iff rfl hz, hle, hlt, (condHolds_opposite_iff rfl hls).trans not_le,
    (condHolds_opposite_iff rfl hc).trans not_lt, hls, hc⟩

/-- Settles O32: what a push leaves, with PC then at the target. -/
theorem callPushesTheReturnAddress : Obligations.CallPushesTheReturnAddress := by
  intro x s h
  exact ⟨_, exec_call_ready h x, pushed_setPc (pushed_leaves h _) _, rfl⟩

/-- Settles O34: the word at SP is the one CALL pushed (`callPushesTheReturnAddress`), and SP goes up by the 2 it went
down. -/
theorem returnAfterCallComesBack : Obligations.ReturnAfterCallComesBack := by
  intro x s t u h hcall hmem hmmu _ hsp
  obtain ⟨t', hcall', ⟨hword, hspCall, -, -, -, hmmuCall, -⟩, -⟩ := callPushesTheReturnAddress x s h
  obtain rfl : t = t' := by simpa [hcall] using hcall'
  have hspSlot : readReg .sp u = readReg .sp s - 2 := hsp.trans hspCall
  have hready : popReady u = true := popReady_of_pushed h (hmmu.trans hmmuCall) hspSlot
  refine ⟨returned u, exec_ret_ready hready, ?pc, ?sp⟩
  case pc =>
    calc wordAt u (readReg .sp u) = wordAt t (readReg .sp u) := wordAt_congr hmem hmmu _
      _ = wordAt t (readReg .sp s - 2) := by rw [hspSlot]
      _ = s.pc + 4 := hword
  case sp => rw [readReg_sp_returned, hspSlot, BitVec.sub_add_cancel]

end Sys2Proof.Machine
end

section
/-! SUPPORT. What IN and OUT do to the state: the exception without the privilege, the register an IN writes, and the
devices after an OUT, byte by byte (20_memory.md R59, R72, 44_io.md R180 to R183, 60_exceptions.md R201, R232 to
R236). -/

namespace Sys2Proof.Machine

/-! ## Without the privilege -/

theorem ioAllowed_eq_false {s : State} (hp : s.flag.p = false) (hi : s.flag.i = false) : ioAllowed s = false := by
  simp [ioAllowed, hp, hi]

theorem input_unprivileged {s : State} (h : ioAllowed s = false) (rd : Reg) (x : IoEa) :
    input rd x s = takeException .privilegeViolation (s.pc + ioBytes x) s := by
  simp [input, inputBody, h]

theorem output_unprivileged {s : State} (h : ioAllowed s = false) (rd : Reg) (x : IoEa) :
    output rd x s = takeException .privilegeViolation (s.pc + ioBytes x) s := by
  simp [output, outputBody, h]

/-! ## IN -/

/-- The state after an IN: the value in Rd, the read in the record, PC advanced (44_io.md R181). -/
def inDone (rd : Reg) (x : IoEa) (s : State) : State :=
  (writeReg rd (ioValue (ioWidth x) (ioAddr x s) s) (logIo (.read (ioWidth x) (ioAddr x s)) s)).setPc (s.pc + ioBytes x)

theorem input_ready {x : IoEa} {s : State} (h : ioReady x s = true) (rd : Reg) :
    input rd x s = .next (inDone rd x s) := by
  obtain ⟨hp, hr⟩ := (ioReady_iff x s).mp h
  have hbody : inputBody rd x s = .ok (inDone rd x s) := (inputBody_ok_iff rd x s _).mpr ⟨hp, hr, rfl⟩
  simp only [input, hbody, settle_ok]

theorem physRead_inDone (q : Phys) (rd : Reg) (x : IoEa) (s : State) :
    physRead q (inDone rd x s) =
      if physOf rd s.flag.p = some q then ioValue (ioWidth x) (ioAddr x s) s else physRead q s := by
  simp only [inDone, physRead_setPc, physRead_writeReg, logIo, physRead_setIo, State.setIo_flag]

theorem ioValue_byte (a : Word) (s : State) : ioValue .byte a s = (portByte a.toNat s).setWidth 16 := rfl

theorem ioValue_word (a : Word) (s : State) :
    ioValue .word a s = joinBytes (portByte a.toNat s) (portByte (a.toNat + 1) s) := rfl

/-! ## The bytes an OUT writes -/

section Bytes

variable {x : IoEa} {s : State}

theorem outByteAt_word (hw : ioWidth x = .word) (v : Word) (k : Nat) :
    outByteAt x v s k =
      if k = (ioAddr x s).toNat then some (hiByte v)
      else if k = (ioAddr x s).toNat + 1 then some (loByte v) else none := by
  simp only [outByteAt, hw]

theorem outByteAt_byte (hw : ioWidth x = .byte) (v : Word) (k : Nat) :
    outByteAt x v s k = if k = (ioAddr x s).toNat then some (loByte v) else none := by
  simp only [outByteAt, hw]

theorem outByteAt_word_iff (hw : ioWidth x = .word) (v : Word) (k : Nat) (b : Byte) :
    outByteAt x v s k = some b ↔
      (k = (ioAddr x s).toNat ∧ b = hiByte v) ∨ (k = (ioAddr x s).toNat + 1 ∧ b = loByte v) := by
  rw [outByteAt_word hw]
  by_cases hk : k = (ioAddr x s).toNat
  · simp [hk, eq_comm]
  · simp [hk, eq_comm]

theorem outByteAt_byte_iff (hw : ioWidth x = .byte) (v : Word) (k : Nat) (b : Byte) :
    outByteAt x v s k = some b ↔ k = (ioAddr x s).toNat ∧ b = loByte v := by
  simp [outByteAt_byte hw, eq_comm]

theorem outSets_iff (x : IoEa) (v : Word) (s : State) (k b : Nat) :
    outSets x v s k b = true ↔ ∃ c, outByteAt x v s k = some c ∧ c.getLsbD b = true := by
  simp [outSets, Option.any_eq_true]

end Bytes

theorem outValue_byte (v : Word) : outValue .byte v = v &&& 0x00FF := by
  apply BitVec.eq_of_toNat_eq
  have hmask : v.toNat &&& 255 = v.toNat % 256 := Nat.and_two_pow_sub_one_eq_mod v.toNat 8
  have hbyte : (outValue .byte v).toNat = v.toNat % 256 := by simp [outValue, loByte]; omega
  rw [hbyte, ← hmask, BitVec.toNat_and]
  rfl

/-! ## The devices after an OUT -/

/-- The devices after a write of one byte: the ports F0h to F7h are the MMU's (20_memory.md R61 to R66). -/
def devicesAfterPort (a : Nat) (v : Byte) (d : Io) : Io :=
  if 0xF0 ≤ a ∧ a ≤ 0xF7 then d else deviceWrite a v d

/-- The devices after an I/O write, byte by byte (20_memory.md R59). -/
def devicesAfter (w : Width) (a v : Word) (d : Io) : Io :=
  match w with
  | .word => devicesAfterPort (a.toNat + 1) (loByte v) (devicesAfterPort a.toNat (hiByte v) d)
  | .byte => devicesAfterPort a.toNat (loByte v) d

theorem portWrite_io {a : Nat} {v : Byte} {s t : State} (h : portWrite a v s = .ok t) :
    t.io = devicesAfterPort a v s.io := by
  obtain ⟨-, rfl⟩ := (portWrite_ok_iff a v s t).mp h
  unfold devicesAfterPort
  split <;> rfl

theorem ioWriteBytes_io {w : Width} {a v : Word} {s t : State} (h : ioWriteBytes w a v s = .ok t) :
    t.io = devicesAfter w a v s.io := by
  cases w with
  | byte => exact portWrite_io h
  | word =>
    simp only [ioWriteBytes] at h
    split at h
    case h_1 => cases h
    case h_2 s1 h1 =>
      split at h
      case h_1 => cases h
      case h_2 s2 h2 =>
        have hio : s2.io = devicesAfter .word a v s.io := by rw [portWrite_io h2, portWrite_io h1]; rfl
        cases h
        split <;> exact hio

/-! ## One byte written -/

theorem history_devicesAfterPort (a : Nat) (v : Byte) (d : Io) : (devicesAfterPort a v d).history = d.history := by
  unfold devicesAfterPort
  split <;> rfl

theorem read_devicesAfterPort_mmuPort {k : Nat} (hk : 0xF0 ≤ k ∧ k ≤ 0xF7) (a : Nat) (v : Byte) (d : Io) :
    Memory.read (devicesAfterPort a v d).latch k = Memory.read d.latch k := by
  unfold devicesAfterPort
  split
  case isTrue => rfl
  case isFalse h =>
    have hne : k ≠ a := fun e => h (e ▸ hk)
    rw [read_deviceWrite, if_neg hne]

theorem read_devicesAfterPort_device {k : Nat} (hk : ¬(0xF0 ≤ k ∧ k ≤ 0xF7)) (a : Nat) (v : Byte) (d : Io) :
    Memory.read (devicesAfterPort a v d).latch k = if k = a then v &&& writeMask a else Memory.read d.latch k := by
  unfold devicesAfterPort
  split
  case isTrue h =>
    have hne : k ≠ a := fun e => hk (e ▸ h)
    rw [if_neg hne]
  case isFalse => exact read_deviceWrite a v d k

/-- No port of the MMU starts an SD transfer. -/
theorem usdStarted_devicesAfterPort (a : Nat) (v : Byte) (d : Io) :
    (devicesAfterPort a v d).usdStarted = (d.usdStarted || startsTransfer a v) := by
  unfold devicesAfterPort
  split
  case isTrue h =>
    have ha : a ≠ 0x11 := by omega
    simp [startsTransfer, ha]
  case isFalse => rfl

/-- No port of the MMU holds an enable bit. -/
theorem enabledBy_mmuPort {a : Nat} (h : 0xF0 ≤ a ∧ a ≤ 0xF7) (v : Byte) : enabledBy a v = 0 := by
  unfold enabledBy
  split
  case h_9 => rfl
  all_goals exact absurd h.1 (by decide)

theorem irqEnabled_devicesAfterPort (a : Nat) (v : Byte) (d : Io) (j : Nat) :
    (devicesAfterPort a v d).irqEnabled.getLsbD j = (d.irqEnabled.getLsbD j || (enabledBy a v).getLsbD j) := by
  unfold devicesAfterPort
  split
  case isTrue h => simp [enabledBy_mmuPort h]
  case isFalse => exact BitVec.getLsbD_or

/-! ## The whole write -/

section Whole

variable (x : IoEa) (v : Word) (s : State) (d : Io)

theorem history_devicesAfter : (devicesAfter (ioWidth x) (ioAddr x s) v d).history = d.history := by
  cases ioWidth x <;> simp only [devicesAfter, history_devicesAfterPort]

/-- The MMU's ports have no output register. -/
theorem read_devicesAfter_mmuPort {k : Nat} (hk : 0xF0 ≤ k ∧ k ≤ 0xF7) :
    Memory.read (devicesAfter (ioWidth x) (ioAddr x s) v d).latch k = Memory.read d.latch k := by
  cases ioWidth x <;> simp only [devicesAfter, read_devicesAfterPort_mmuPort hk]

/-- Every other output register holds the drawn bits of the byte written to it, or what it held where none is
(60_exceptions.md R236). -/
theorem read_devicesAfter_device {k : Nat} (hk : ¬(0xF0 ≤ k ∧ k ≤ 0xF7)) :
    Memory.read (devicesAfter (ioWidth x) (ioAddr x s) v d).latch k =
      (outByteAt x v s k).elim (Memory.read d.latch k) (· &&& writeMask k) := by
  cases hw : ioWidth x with
  | byte =>
    simp only [devicesAfter, read_devicesAfterPort_device hk, outByteAt_byte hw]
    by_cases h : k = (ioAddr x s).toNat <;> simp [h]
  | word =>
    simp only [devicesAfter, read_devicesAfterPort_device hk, outByteAt_word hw]
    by_cases h : k = (ioAddr x s).toNat
    · simp [h]
    · by_cases h' : k = (ioAddr x s).toNat + 1 <;> simp [h, h']

/-- A bit of the devices that each written byte can only set is set after the write exactly if it was set or one of the
written bytes sets it. -/
theorem set_devicesAfter_iff {bit : Io → Bool} {sets : Nat → Byte → Bool}
    (hport : ∀ a b d, bit (devicesAfterPort a b d) = (bit d || sets a b)) :
    bit (devicesAfter (ioWidth x) (ioAddr x s) v d) = true ↔
      bit d = true ∨ ∃ k b, outByteAt x v s k = some b ∧ sets k b = true := by
  cases hw : ioWidth x with
  | byte => simp [devicesAfter, hport, outByteAt_byte_iff hw, and_assoc]
  | word => simp [devicesAfter, hport, outByteAt_word_iff hw, or_and_right, exists_or, and_assoc, or_assoc]

/-- READ and WRITE of uSD-Ctrl start an SD transfer (60_exceptions.md R234). -/
theorem usdStarted_devicesAfter :
    (devicesAfter (ioWidth x) (ioAddr x s) v d).usdStarted =
      (d.usdStarted || outSets x v s 0x11 1 || outSets x v s 0x11 0) := by
  rw [Bool.eq_iff_iff, set_devicesAfter_iff x v s d usdStarted_devicesAfterPort]
  simp [startsTransfer, outSets_iff, and_or_left, exists_or, or_assoc]

/-- The sources with an enable bit of their own: number, port and bit (60_exceptions.md R201, R232 to R234). -/
def enableBits : List (Nat × Nat × Nat) :=
  [(0, 0x02, 7), (1, 0x06, 7), (2, 0x2B, 6), (3, 0x2B, 7), (4, 0x0B, 6), (5, 0x0B, 7), (6, 0x0F, 6), (7, 0x0F, 7),
    (8, 0x11, 7)]

theorem getLsbD_enabledBy_source {e : Nat × Nat × Nat} (he : e ∈ enableBits) (a : Nat) (c : Byte) :
    (enabledBy a c).getLsbD e.1 = (decide (a = e.2.1) && c.getLsbD e.2.2) := by
  rw [getLsbD_enabledBy]
  revert e
  simp [enableBits]

/-- A source whose enable bit is the single bit `b` of port `p` is enabled by an OUT that writes the bit as 1. -/
theorem irqEnabled_devicesAfter {j p b : Nat}
    (hsource : ∀ a c, (enabledBy a c).getLsbD j = (decide (a = p) && c.getLsbD b)) :
    (devicesAfter (ioWidth x) (ioAddr x s) v d).irqEnabled.getLsbD j =
      (d.irqEnabled.getLsbD j || outSets x v s p b) := by
  rw [Bool.eq_iff_iff, set_devicesAfter_iff x v s d (bit := fun d => d.irqEnabled.getLsbD j)
    fun a c d => irqEnabled_devicesAfterPort a c d j]
  simp [hsource, outSets_iff]

/-- The PIO is enabled by any bit set in its mask or its XOR port (60_exceptions.md R235, notes/assumptions/31.md). -/
theorem irqEnabled_pio_devicesAfter :
    (devicesAfter (ioWidth x) (ioAddr x s) v d).irqEnabled.getLsbD 9 = true ↔
      d.irqEnabled.getLsbD 9 = true ∨
        ∃ b, b ≠ 0 ∧ (outByteAt x v s 0x25 = some b ∨ outByteAt x v s 0x27 = some b) := by
  have hpio : ∀ a c, (enabledBy a c).getLsbD 9 = (decide (a = 0x25 ∨ a = 0x27) && c != 0) := by
    intro a c
    rw [getLsbD_enabledBy]
    simp [Bool.and_or_distrib_right]
  rw [set_devicesAfter_iff x v s d (bit := fun d => d.irqEnabled.getLsbD 9)
    fun a c d => irqEnabled_devicesAfterPort a c d 9]
  simp only [hpio, Bool.and_eq_true, decide_eq_true_eq, bne_iff_ne]
  refine or_congr_right ⟨?sets, ?written⟩
  case sets =>
    rintro ⟨k, b, hb, rfl | rfl, hne⟩
    · exact ⟨b, hne, .inl hb⟩
    · exact ⟨b, hne, .inr hb⟩
  case written =>
    rintro ⟨b, hne, hb | hb⟩
    · exact ⟨0x25, b, hb, .inl rfl, hne⟩
    · exact ⟨0x27, b, hb, .inr rfl, hne⟩

end Whole

/-! ## The MMU and the registers after an OUT -/

/-- An access with a meaning that starts outside the ports F0h to F7h reaches no MMU register: a word's second byte
does not either, its address being even. -/
theorem mmuAfter_outside {w : Width} {a : Word} (heven : w = .word → isOdd a = false)
    (h : a.toNat < 0xF0 ∨ 0xF7 < a.toNat) (v : Word) (m : Mmu) : mmuAfter w a v m = m := by
  have hfirst : ¬(0xF0 ≤ a.toNat ∧ a.toNat ≤ 0xF7) := by omega
  cases w with
  | byte => exact mmuWrite_outside hfirst _ m
  | word =>
    have hodd := toNat_odd (heven rfl)
    have hsecond : ¬(0xF0 ≤ a.toNat + 1 ∧ a.toNat + 1 ≤ 0xF7) := by omega
    have hF6 : a ≠ 0xF6 := by
      rintro rfl
      exact hfirst (by decide)
    simp only [mmuAfter, if_neg hF6, mmuWrite_outside hfirst, mmuWrite_outside hsecond]

theorem outDone_io (rd : Reg) (x : IoEa) (s u : State) :
    (outDone rd x s u).io =
      { u.io with
        history := .write (ioWidth x) (ioAddr x s) (outValue (ioWidth x) (readReg rd s)) :: u.io.history } := rfl

/-- An OUT changes PC, the MMU's registers and the devices and nothing else (44_io.md R182). -/
theorem outDone_eq {rd : Reg} {x : IoEa} {s u : State} {w : Width} {a v : Word} (h : ioWriteBytes w a v s = .ok u) :
    ∃ m d, outDone rd x s u = ((s.setMmu m).setIo d).setPc (s.pc + ioBytes x) := by
  obtain ⟨m, d, rfl⟩ := ioWriteBytes_keeps h
  exact ⟨m, _, rfl⟩

end Sys2Proof.Machine
end

section
/-! IN and OUT: the statements about 44_io.md. -/

namespace Sys2Proof.Machine

/-- Settles O44: `inDone` is what the register write of the port's value leaves. -/
theorem inputReadsThePort : Obligations.InputReadsThePort := by
  intro rd x s hready v
  have hexec : exec (.ofIn rd x) s = .next (inDone rd x s) := (exec_ofIn rd x s).trans (input_ready hready rd)
  obtain ⟨hmem, hmmu, hio, hhalted, hdraws, -⟩ := writeReg_keeps rd v (logIo (.read (ioWidth x) (ioAddr x s)) s)
  refine ⟨inDone rd x s, hexec, fun q hq => ?value, fun q hq => ?others, flag_writeReg rd v (logIo _ s), rfl,
    byteAt_congr hmem hmmu, hmmu, hhalted, hdraws, hio, fun hw => ?byte, fun hw => ?word⟩
  case value => rw [physRead_inDone, if_pos hq]
  case others => rw [physRead_inDone, if_neg hq]
  case byte => simp only [v, hw, ioValue_byte]
  case word => simp only [v, hw, ioValue_word, hiByte_joinBytes, loByte_joinBytes, and_self]

/-- Settles O46: the write completes, leaves the devices as `devicesAfter` says, and joins the record. -/
theorem outputWritesThePort : Obligations.OutputWritesThePort := by
  intro rd x s hready hre a v
  obtain ⟨u, hu⟩ := ioWriteBytes_completes hready hre
  have hexec : exec (.ofOut rd x) s = .next (outDone rd x s u) := (exec_ofOut rd x s).trans (output_written hready hu)
  obtain ⟨-, hr⟩ := (ioReady_iff x s).mp hready
  obtain ⟨-, heven⟩ := (ioRefusal_eq_none_iff _ _).mp hr
  have hmmu := (outDone_mmu rd x s u).trans (ioWriteBytes_mmu hu)
  have hio := outDone_io rd x s u
  rw [ioWriteBytes_io hu] at hio
  obtain ⟨m, d, hdone⟩ := outDone_eq (rd := rd) (x := x) hu
  refine ⟨outDone rd x s u, hexec, fun q _ => ?regs, ?flag, ?mem, ?halted, ?draws, rfl, ?record, fun hout => ?mmu,
    fun k hk => ?kept, fun k b hk hb => ?written, ?transfer, ?sources, ?pio⟩
  case regs => simp only [hdone, physRead_setPc, physRead_setIo, physRead_setMmu]
  case flag => rw [hdone]; rfl
  case mem => rw [hdone]; rfl
  case halted => rw [hdone]; rfl
  case draws => rw [hdone]; rfl
  case record =>
    refine ⟨_, by rw [hio, history_devicesAfter], fun hw => ?_, fun hw => ?_⟩
    · rw [hw]; rfl
    · rw [hw, outValue_byte]
  case mmu => rw [hmmu, mmuAfter_outside heven hout]
  case kept =>
    rw [hio]
    by_cases hport : 0xF0 ≤ k ∧ k ≤ 0xF7
    · exact read_devicesAfter_mmuPort x v s s.io hport
    · refine (read_devicesAfter_device x v s s.io hport).trans ?_
      rw [hk.resolve_left hport, Option.elim_none]
  case written =>
    have hout : ¬(0xF0 ≤ k ∧ k ≤ 0xF7) := by omega
    rw [hio]
    refine (read_devicesAfter_device x v s s.io hout).trans ?_
    rw [hb, Option.elim_some]
  case transfer => rw [hio, usdStarted_devicesAfter]
  case sources =>
    rw [hio]
    exact fun e he => irqEnabled_devicesAfter x v s s.io (getLsbD_enabledBy_source he)
  case pio => rw [hio]; exact irqEnabled_pio_devicesAfter x v s s.io

/-- Settles O48: both stop at the privilege check, and the violation is taken. -/
theorem inputOutputNeedPrivilege : Obligations.InputOutputNeedPrivilege := by
  intro rd x s hp hi hready
  have hdenied := ioAllowed_eq_false hp hi
  have htraps := takeException_traps hready .privilegeViolation (s.pc + ioBytes x)
  rw [exec_ofIn, exec_ofOut, input_unprivileged hdenied, output_unprivileged hdenied]
  exact ⟨htraps, htraps⟩

end Sys2Proof.Machine
end

section
/-! SUPPORT. What PUSH, POP and RETI leave, and where SVC enters (45_stack_return.md R185 to R191, 46_system.md R195,
60_exceptions.md R215, R218). -/

namespace Sys2Proof.Machine

/-! ## Register names and physical registers -/

/-- The register number that names a physical register in either mode; for SSP number Dh, its only one
(10_state.md R23, R24). -/
def Phys.name : Phys → Reg
  | .g n => .g n
  | .fp => .fp
  | .ssp => .sp
  | .usp => .usp

/-- Number Dh apart, no two register numbers name one physical register. -/
theorem eq_name_of_physOf {r : Reg} {p : Bool} {q : Phys} (hsp : r ≠ .sp) (h : physOf r p = some q) : r = q.name := by
  cases r with
  | sp => exact absurd rfl hsp
  | flag => exact nomatch h
  | _ => cases h; rfl

theorem exists_physOf {r : Reg} (h : r ≠ .flag) (p : Bool) : ∃ q, physOf r p = some q := by
  cases r with
  | flag => exact absurd rfl h
  | sp => cases p <;> exact ⟨_, rfl⟩
  | _ => exact ⟨_, rfl⟩

/-- The names that are no operand of PUSH and POP are those of the register that number Dh stands for. -/
theorem namesStackPointer_iff (r : Reg) (s : State) :
    namesStackPointer r s = true ↔ physOf r s.flag.p = physOf .sp s.flag.p := by
  cases r <;> cases hp : s.flag.p <;> simp [namesStackPointer, physOf, hp]

theorem physOf_sp_ne {r : Reg} {s : State} {q : Phys} (hn : namesStackPointer r s = false)
    (hq : physOf r s.flag.p = some q) : physOf .sp s.flag.p ≠ some q := by
  intro hsp
  have htrue := (namesStackPointer_iff r s).mpr (hq.trans hsp.symm)
  exact Bool.false_ne_true (hn.symm.trans htrue)

theorem namesStackPointer_congr {s t : State} (h : t.flag = s.flag) (r : Reg) :
    namesStackPointer r t = namesStackPointer r s := by
  cases r <;> simp [namesStackPointer, h]

/-- A register number reads as before where FLAG and the physical register it names do. -/
theorem readReg_congr {r : Reg} {s t : State} (hflag : t.flag = s.flag)
    (hphys : ∀ q, physOf r s.flag.p = some q → physRead q t = physRead q s) : readReg r t = readReg r s := by
  by_cases hr : r = .flag
  · subst hr
    exact congrArg Flags.toWord hflag
  · obtain ⟨q, hq⟩ := exists_physOf hr s.flag.p
    calc readReg r t = physRead q t := (physRead_physOf (hflag ▸ hq)).symm
      _ = physRead q s := hphys q hq
      _ = readReg r s := physRead_physOf hq

theorem systemKept_trans {s t u : State} (hst : SystemKept s t) (htu : SystemKept t u) : SystemKept s u := by
  obtain ⟨hmmu, hio, hhalted, hdraws⟩ := hst
  obtain ⟨hmmu', hio', hhalted', hdraws'⟩ := htu
  exact ⟨hmmu'.trans hmmu, hio'.trans hio, hhalted'.trans hhalted, hdraws'.trans hdraws⟩

/-! ## PUSH -/

theorem exec_push_ready {rd : Reg} {s : State} (hn : namesStackPointer rd s = false) (h : pushReady s = true) :
    exec (.push rd) s = .next ((pushed (readReg rd s) s).setPc (s.pc + 2)) := by
  have hbody := (pushBody_ok_iff rd s _).mpr ⟨hn, _, push_eq_pushed h _, rfl⟩
  rw [exec_eq_performForm]
  exact (settle_next_iff s (s.pc + 2) _ _).mpr (.inl hbody)

/-! ## POP -/

/-- The state after a pop that completes (45_stack_return.md R185). -/
def popped (s : State) : State := writeReg .sp (readReg .sp s + 2) s

theorem pop_eq_popped {s : State} (h : popReady s = true) : pop s = .ok (wordAt s (readReg .sp s), popped s) := by
  obtain ⟨hm, ho⟩ := (popReady_iff s).mp h
  exact (pop_ok_iff s _ _).mpr ⟨ho, hm, rfl, rfl⟩

theorem popped_flag (s : State) : (popped s).flag = s.flag := writeReg_flag .sp _ s (by decide)

/-- The state after a POP that completes (45_stack_return.md R187). -/
def poppedInto (rd : Reg) (s : State) : State :=
  (writeReg rd (wordAt s (readReg .sp s)) (popped s)).setPc (s.pc + 2)

theorem exec_pop_ready {rd : Reg} {s : State} (hn : namesStackPointer rd s = false) (h : popReady s = true) :
    exec (.pop rd) s = .next (poppedInto rd s) := by
  have hbody : popBody rd s = .ok (poppedInto rd s) :=
    (popBody_ok_iff rd s _).mpr ⟨hn, _, _, pop_eq_popped h, rfl⟩
  rw [exec_eq_performForm]
  exact (settle_next_iff s (s.pc + 2) _ _).mpr (.inl hbody)

theorem physRead_poppedInto (q : Phys) (rd : Reg) (s : State) :
    physRead q (poppedInto rd s) =
      if physOf rd s.flag.p = some q then wordAt s (readReg .sp s)
      else if physOf .sp s.flag.p = some q then readReg .sp s + 2 else physRead q s := by
  rw [poppedInto, physRead_setPc, physRead_writeReg, popped_flag, popped, physRead_writeReg]

theorem poppedInto_flag (rd : Reg) (s : State) :
    (poppedInto rd s).flag = if rd = .flag then s.flag.write (wordAt s (readReg .sp s)) else s.flag := by
  rw [poppedInto, State.setPc_flag, flag_writeReg, popped_flag]

theorem bytesKept_poppedInto (rd : Reg) (s : State) : BytesKept s (poppedInto rd s) := by
  intro a
  calc byteAt (poppedInto rd s) a = byteAt (popped s) a := bytesKept_writeReg rd _ _ a
    _ = byteAt s a := bytesKept_writeReg .sp _ s a

theorem systemKept_poppedInto (rd : Reg) (s : State) : SystemKept s (poppedInto rd s) :=
  systemKept_trans (systemKept_writeReg .sp _ s) (systemKept_writeReg rd _ (popped s))

/-! ## SVC and RETI -/

theorem trapEntered_of_exec_svc {s t : State} (h : exec .svc s = .next t) :
    TrapEntered 14 (s.pc + 2) s.mmu s t := by
  rw [exec_eq_performForm] at h
  exact takeException_entered (k := .supervisorCall) h

/-- V, C, S and Z come from the word in either mode (10_state.md R33). -/
theorem Flags.write_conditions (f : Flags) (v : Word) :
    (f.write v).v = v.getLsbD 3 ∧ (f.write v).c = v.getLsbD 2 ∧ (f.write v).s = v.getLsbD 1 ∧
      (f.write v).z = v.getLsbD 0 := by
  unfold Flags.write
  split <;> exact ⟨rfl, rfl, rfl, rfl⟩

theorem add_two_two (a : Word) : a + 2 + 2 = a + 4 := by
  rw [BitVec.add_assoc]; rfl

/-- The state after a RETI that completes (45_stack_return.md R191). -/
def resumed (s : State) : State :=
  ((writeReg .sp (readReg .sp s + 4) s).setFlag (s.flag.write (wordAt s (readReg .sp s)))).setPc
    (wordAt s (readReg .sp s + 2))

theorem exec_reti_ready {s : State} (h : popReady s = true) : exec .reti s = .next (resumed s) := by
  obtain ⟨hm, ho⟩ := (popReady_iff s).mp h
  have hbody : reti s = .ok (resumed s) := (reti_ok_iff s _).mpr ⟨ho, hm, by rw [add_two_two]; rfl⟩
  rw [exec_eq_performForm]
  exact (settle_next_iff s (s.pc + 2) _ _).mpr (.inl hbody)

theorem physRead_resumed (q : Phys) (s : State) :
    physRead q (resumed s) = if physOf .sp s.flag.p = some q then readReg .sp s + 4 else physRead q s := by
  rw [resumed, physRead_setPc, physRead_setFlag, physRead_writeReg]

end Sys2Proof.Machine
end

section
/-! The stack and returns: the statements about 45_stack_return.md. -/

namespace Sys2Proof.Machine

/-- Settles O33: a pop, whose word goes to PC. -/
theorem returnPopsThePc : Obligations.ReturnPopsThePc := by
  intro s h
  exact ⟨returned s, exec_ret_ready h, rfl, readReg_sp_returned s,
    fun q hq => (physRead_setPc q _ _).trans (regsKeptBut_writeReg .sp _ s q hq), flag_writeReg .sp _ s,
    bytesKept_writeReg .sp _ s, systemKept_writeReg .sp _ s⟩

/-- Settles O35: what a push leaves, with PC then at the next instruction. -/
theorem pushStoresTheRegister : Obligations.PushStoresTheRegister := by
  intro rd s hn h
  exact ⟨_, exec_push_ready hn h, pushed_setPc (pushed_leaves h _) _, rfl⟩

/-- Settles O36: Rd is not the register that the pop moves, so each of the two writes is seen in full. -/
theorem popLoadsTheRegister : Obligations.PopLoadsTheRegister := by
  intro rd s hn h
  refine ⟨poppedInto rd s, exec_pop_ready hn h, fun q hrd => ?value, fun q hsp => ?pointer, fun q hrd hsp => ?others,
    poppedInto_flag rd s, rfl, bytesKept_poppedInto rd s, systemKept_poppedInto rd s⟩
  case value => rw [physRead_poppedInto, if_pos hrd]
  case pointer =>
    have hrd : physOf rd s.flag.p ≠ some q := fun hrd => physOf_sp_ne hn hrd hsp
    rw [physRead_poppedInto, if_neg hrd, if_pos hsp]
  case others => rw [physRead_poppedInto, if_neg hrd, if_neg hsp]

/-- Settles O38: O36 in the state O35 leaves, where the word at SP is the pushed value; the register that number Dh
stands for is back where it was, whatever other number names it too. -/
theorem popAfterPushMovesTheValue : Obligations.PopAfterPushMovesTheValue := by
  intro rs rd s t hrs hrd hflag h hpush
  obtain ⟨t', hpush', ⟨hword, hsp, -, hregs, hflagPush, hmmu, -⟩, -⟩ := pushStoresTheRegister rs s hrs h
  obtain rfl : t = t' := by simpa [hpush] using hpush'
  obtain ⟨u, hpop, hvalue, hpointer, hothers, hflagPop, -⟩ :=
    popLoadsTheRegister rd t ((namesStackPointer_congr hflagPush rd).trans hrd) (popReady_of_pushed h hmmu hsp)
  rw [hflagPush] at hvalue hpointer hothers
  rw [if_neg hflag, hflagPush] at hflagPop
  have hback : ∀ q, physOf .sp s.flag.p = some q → physRead q u = physRead q s := fun q hq =>
    calc physRead q u = readReg .sp t + 2 := hpointer q hq
      _ = readReg .sp s := by rw [hsp, BitVec.sub_add_cancel]
      _ = physRead q s := (physRead_physOf hq).symm
  refine ⟨u, hpop, ?value, readReg_congr hflagPop hback,
    fun r hrrd hrsp => readReg_congr hflagPop fun q hq => ?others⟩
  case value =>
    obtain ⟨q, hq⟩ := exists_physOf hflag s.flag.p
    calc readReg rd u = physRead q u := (physRead_physOf (hflagPop ▸ hq)).symm
      _ = wordAt t (readReg .sp t) := hvalue q hq
      _ = readReg rs s := by rw [hsp, hword]
  case others =>
    by_cases hspq : physOf .sp s.flag.p = some q
    · exact hback q hspq
    · have hrdsp : rd ≠ .sp := by rintro rfl; exact nomatch hrd
      have hrdq : physOf rd s.flag.p ≠ some q := fun hrdq =>
        hrrd ((eq_name_of_physOf hrsp hq).trans (eq_name_of_physOf hrdsp hrdq).symm)
      exact (hothers q hrdq hspq).trans (hregs q hspq)

/-- Settles O40: both words are read before SP moves, and FLAG's goes through the write filter. -/
theorem returnFromTrapRestoresFlagAndPc : Obligations.ReturnFromTrapRestoresFlagAndPc := by
  intro s h f
  obtain ⟨hv, hc, hs, hz⟩ := s.flag.write_conditions f
  refine ⟨resumed s, exec_reti_ready h, rfl, fun q hq => ?pointer, fun q hq => ?regs, hv, hc, hs, hz,
    fun hp => Flags.write_user hp f, fun hp => ?mode, bytesKept_writeReg .sp _ s, systemKept_writeReg .sp _ s⟩
  case pointer => rw [physRead_resumed, if_pos hq]
  case regs => rw [physRead_resumed, if_neg hq]
  case mode =>
    have hflag : (resumed s).flag = Flags.ofWord f := Flags.write_priv hp f
    rw [hflag]
    exact ⟨rfl, rfl, rfl⟩

/-- Settles O42: the handler's stack pointer is SSP, at the frame that trap entry left, and in privileged mode the saved
FLAG comes back whole (`Flags.write_toWord`). -/
theorem returnFromSupervisorCallResumes : Obligations.ReturnFromSupervisorCallResumes := by
  intro s t u h hsvc hmem hmmu hssp husp hp
  have hentered := trapEntered_of_exec_svc hsvc
  obtain ⟨hm, ho, -⟩ := (trapReady_iff s).mp h
  have hsp : readReg .sp u = s.ssp - 4 := (readReg_sp_priv hp).trans (hssp.trans hentered.ssp)
  have heven : isOdd (s.ssp - 4) = false := by rw [← sub_two_two, isOdd_sub_two, isOdd_sub_two, ho]
  have hready : popReady u = true :=
    (popReady_iff u).mpr ⟨(mmuOn_congr (hmmu.trans hentered.mmu)).trans hm, by rw [hsp, heven]⟩
  have hword := wordAt_congr hmem hmmu
  refine ⟨resumed u, exec_reti_ready hready, ?pc, ?flag, ?ssp, ?usp⟩
  case pc =>
    have hslot : s.ssp - 4 + 2 = s.ssp - 2 := by rw [← sub_two_two, BitVec.sub_add_cancel]
    calc wordAt u (readReg .sp u + 2) = wordAt t (s.ssp - 2) := by rw [hsp, hslot, hword]
      _ = s.pc + 2 := hentered.savedPc
  case flag =>
    calc u.flag.write (wordAt u (readReg .sp u)) = u.flag.write s.flag.toWord := by rw [hsp, hword, hentered.savedFlag]
      _ = s.flag := Flags.write_toWord hp s.flag
  case ssp =>
    calc physRead .ssp (resumed u) = readReg .sp u + 4 := by rw [physRead_resumed, hp]; rfl
      _ = s.ssp := by rw [hsp, BitVec.sub_add_cancel]
  case usp =>
    calc physRead .usp (resumed u) = u.usp := by rw [physRead_resumed, hp]; rfl
      _ = t.usp := husp
      _ = s.usp := hentered.regs .usp (by decide)

end Sys2Proof.Machine
end

section
/-! SUPPORT. HALT in each mode, and that no other instruction touches the halted condition (46_system.md R196, R197). -/

namespace Sys2Proof.Machine

/-! ## HALT by mode -/

theorem exec_halt_priv {s : State} (hp : s.flag.p = true) :
    exec .halt s = .next ((s.setHalted true).setPc (s.pc + 2)) := by
  rw [exec_eq_performForm]
  exact if_pos hp

theorem exec_halt_user {s : State} (hp : s.flag.p = false) :
    exec .halt s = takeException .privilegeViolation (s.pc + 2) s := by
  rw [exec_eq_performForm]
  exact if_neg (by simp [hp])

/-! ## What leaves the halted condition alone -/

@[simp] theorem halted_writeReg (r : Reg) (v : Word) (s : State) : (writeReg r v s).halted = s.halted := by
  obtain ⟨-, -, hhalted, -⟩ := systemKept_writeReg r v s
  exact hhalted

@[simp] theorem halted_logIo (ev : IoEvent) (s : State) : (logIo ev s).halted = s.halted := rfl

@[simp] theorem halted_aluApply (op : AluOp) (rd : Reg) (b : Word) (s : State) :
    (aluApply op rd b s).halted = s.halted := by
  unfold aluApply
  split <;> simp

theorem halted_push {v : Word} {s t : State} (h : push v s = .ok t) : t.halted = s.halted := by
  obtain ⟨-, -, -, rfl⟩ := (push_ok_iff v s t).mp h
  simp

theorem halted_pop {v : Word} {s t : State} (h : pop s = .ok (v, t)) : t.halted = s.halted := by
  obtain ⟨-, -, -, rfl⟩ := (pop_ok_iff s v t).mp h
  simp

theorem halted_ioWriteBytes {w : Width} {a v : Word} {s t : State} (h : ioWriteBytes w a v s = .ok t) :
    t.halted = s.halted := by
  obtain ⟨m, d, rfl⟩ := ioWriteBytes_keeps h
  rfl

theorem halted_takeException {k : Exc} {next : Word} {s t : State} (h : takeException k next s = .next t) :
    t.halted = s.halted :=
  (takeException_entered h).halted

/-- Trap entry leaves the halted condition, so an instruction does when its own effect does. -/
theorem halted_settle {next : Word} {r : Except Stop State} {s t : State}
    (hbody : ∀ u, r = .ok u → u.halted = s.halted) (h : settle s next r = .next t) : t.halted = s.halted := by
  rcases (settle_next_iff s next r t).mp h with hok | ⟨k, -, htrap⟩
  · exact hbody t hok
  · exact halted_takeException htrap

/-- Every shape but HALT leaves the halted condition, by its own effect or by the exception it takes. -/
theorem halted_performForm {f : Form} {s t : State} (hf : f ≠ .halt) (h : performForm f s = .next t) :
    t.halted = s.halted := by
  cases f with
  | no => cases h; rfl
  | ld rd x =>
    refine halted_settle (fun u hu => ?_) h
    obtain ⟨v, -, rfl⟩ := (loadBody_ok_iff rd x s u).mp hu
    simp
  | st rd x =>
    refine halted_settle (fun u hu => ?_) h
    obtain ⟨-, -, -, rfl⟩ := (storeBody_ok_iff rd x s u).mp hu
    rfl
  | alu op rd x =>
    refine halted_settle (fun u hu => ?_) h
    obtain ⟨-, b, -, -, rfl⟩ := (aluBody_ok_iff op rd x s u).mp hu
    simp
  | jump cond x => cases h; rfl
  | call x =>
    refine halted_settle (fun u hu => ?_) h
    obtain ⟨p, hp, rfl⟩ := (callBody_ok_iff x s u).mp hu
    simpa using halted_push hp
  | inp rd x =>
    refine halted_settle (fun u hu => ?_) h
    obtain ⟨-, -, rfl⟩ := (inputBody_ok_iff rd x s u).mp hu
    simp
  | out rd x =>
    refine halted_settle (fun u hu => ?_) h
    obtain ⟨-, -, p, hp, rfl⟩ := (outputBody_ok_iff rd x s u).mp hu
    simpa using halted_ioWriteBytes hp
  | push rd =>
    refine halted_settle (fun u hu => ?_) h
    obtain ⟨-, p, hp, rfl⟩ := (pushBody_ok_iff rd s u).mp hu
    simpa using halted_push hp
  | pop rd =>
    refine halted_settle (fun u hu => ?_) h
    obtain ⟨-, v, p, hp, rfl⟩ := (popBody_ok_iff rd s u).mp hu
    simpa using halted_pop hp
  | ret =>
    refine halted_settle (fun u hu => ?_) h
    obtain ⟨v, p, hp, rfl⟩ := (retBody_ok_iff s u).mp hu
    simpa using halted_pop hp
  | reti =>
    refine halted_settle (fun u hu => ?_) h
    obtain ⟨-, -, rfl⟩ := (reti_ok_iff s u).mp hu
    simp
  | svc => exact halted_takeException h
  | halt => exact absurd rfl hf

/-- The shape of HALT is HALT's alone. -/
theorem eq_halt_of_form {i : Instr} (h : i.form = .halt) : i = .halt :=
  calc i = Instr.ofForm i.form := (Instr.ofForm_form i).symm
    _ = .halt := by rw [h]; rfl

end Sys2Proof.Machine
end

section
/-! SVC and HALT: the statements about 46_system.md. -/

namespace Sys2Proof.Machine

/-- Settles O41: SVC is among the instructions that always go on (O59), and trap entry is the one way it can. -/
theorem supervisorCallEntersItsTrap : Obligations.SupervisorCallEntersItsTrap := by
  intro s h
  obtain ⟨t, ht⟩ := everyInstructionGoesOn .svc s h rfl
  exact ⟨rfl, t, ht, trapEntered_of_exec_svc ht⟩

/-- Settles O43, by the mode HALT runs in; a step looks at the halted condition first. -/
theorem haltStopsThePrivilegedCpu : Obligations.HaltStopsThePrivilegedCpu := by
  intro s
  refine ⟨exec_halt_priv, fun hh => ?halted, fun hp hready => ?user⟩
  case halted => exact if_pos hh
  case user =>
    rw [exec_halt_user hp]
    exact takeException_traps hready .privilegeViolation (s.pc + 2)

/-- Settles O58: the instruction is HALT by `halted_performForm`, and in user mode HALT only traps. -/
theorem onlyHaltHalts : Obligations.OnlyHaltHalts := by
  intro i s t h hne
  have hform : i.form = .halt :=
    by_contra fun hf => hne (halted_performForm hf ((exec_eq_performForm i s).symm.trans h))
  obtain rfl := eq_halt_of_form hform
  cases hp : s.flag.p with
  | false => exact absurd (halted_takeException ((exec_halt_user hp).symm.trans h)) hne
  | true =>
    obtain rfl : (s.setHalted true).setPc (s.pc + 2) = t := by simpa [h] using (exec_halt_priv hp).symm
    exact ⟨rfl, rfl, rfl⟩

end Sys2Proof.Machine
end

section
/-! SUPPORT. What user mode is confined to: every shape's own effect keeps SSP, the mode bits and, without the I/O
privilege, the system's registers; the other way to a next state is one of the five exceptions an instruction raises
(10_state.md R33, 44_io.md R183, 46_system.md R197, 60_exceptions.md R202 to R222). -/

namespace Sys2Proof.Machine

/-! ## The exceptions an instruction raises -/

theorem excNumber_bounds (k : Exc) : 10 ≤ excNumber k ∧ excNumber k < 16 := by
  cases k <;> simp [excNumber]

/-- A computation raises no TLB miss, whose number in the vector table is the last one (60_exceptions.md R208). -/
def NoTlbMiss {α : Type} (r : Except Stop α) : Prop := ∀ k, r = .error (.exc k) → excNumber k < 15

theorem NoTlbMiss.ok {α : Type} (a : α) : NoTlbMiss (.ok a : Except Stop α) := by
  intro k h
  cases h

theorem NoTlbMiss.refuse {α : Type} (why : Refusal) : NoTlbMiss (.error (.refuse why) : Except Stop α) := by
  intro k h
  cases h

theorem NoTlbMiss.exc {α : Type} {k : Exc} (hk : excNumber k < 15) :
    NoTlbMiss (.error (.exc k) : Except Stop α) := by
  intro k' h
  cases h
  exact hk

/-- What stops a part of a computation stops the whole of it. -/
theorem NoTlbMiss.stop {α β : Type} {r : Except Stop α} (hr : NoTlbMiss r) {e : Stop} (he : r = .error e) :
    NoTlbMiss (.error e : Except Stop β) := by
  intro k h
  cases h
  exact hr k he

theorem noTlbMiss_oddAccess {α : Type} : NoTlbMiss (.error oddAccess : Except Stop α) := .exc (by decide)

theorem noTlbMiss_translate (s : State) (a : Word) : NoTlbMiss (translate s a) := by
  unfold translate
  split
  · exact .refuse _
  · exact .ok _

theorem noTlbMiss_memRead (w : Width) (a : Word) (s : State) : NoTlbMiss (memRead w a s) := by
  unfold memRead
  split
  · exact noTlbMiss_oddAccess
  · split
    case h_1 e he => exact (noTlbMiss_translate s a).stop he
    case h_2 => exact .ok _

theorem noTlbMiss_memWrite (w : Width) (a v : Word) (s : State) : NoTlbMiss (memWrite w a v s) := by
  unfold memWrite
  split
  · exact noTlbMiss_oddAccess
  · split
    case h_1 e he => exact (noTlbMiss_translate s a).stop he
    case h_2 =>
      split
      · exact .refuse _
      · exact .ok _

theorem noTlbMiss_push (v : Word) (s : State) : NoTlbMiss (push v s) := by
  unfold push
  split
  case h_1 e he => exact (noTlbMiss_memWrite _ _ _ s).stop he
  case h_2 => exact .ok _

theorem noTlbMiss_pop (s : State) : NoTlbMiss (pop s) := by
  unfold pop
  split
  case h_1 e he => exact (noTlbMiss_memRead _ _ s).stop he
  case h_2 => exact .ok _

theorem noTlbMiss_operandValue (x : Operand) (s : State) : NoTlbMiss (operandValue x s) := by
  cases x with
  | mem ea => exact noTlbMiss_memRead _ _ s
  | _ => exact .ok _

theorem noTlbMiss_loadBody (rd : Reg) (x : Operand) (s : State) : NoTlbMiss (loadBody rd x s) := by
  unfold loadBody
  split
  case h_1 e he => exact (noTlbMiss_operandValue x s).stop he
  case h_2 => exact .ok _

theorem noTlbMiss_storeBody (rd : Reg) (x : MemEa) (s : State) : NoTlbMiss (storeBody rd x s) := by
  unfold storeBody
  split
  case h_1 e he => exact (noTlbMiss_memWrite _ _ _ s).stop he
  case h_2 => exact .ok _

theorem noTlbMiss_aluBody (op : AluOp) (rd : Reg) (x : Operand) (s : State) : NoTlbMiss (aluBody op rd x s) := by
  unfold aluBody
  split
  · exact .refuse _
  · split
    case h_1 e he => exact (noTlbMiss_operandValue x s).stop he
    case h_2 =>
      split
      · exact .exc (by decide)
      · exact .ok _

theorem noTlbMiss_callBody (x : JumpEa) (s : State) : NoTlbMiss (callBody x s) := by
  unfold callBody
  split
  case h_1 e he => exact (noTlbMiss_push _ s).stop he
  case h_2 => exact .ok _

theorem noTlbMiss_pushBody (rd : Reg) (s : State) : NoTlbMiss (pushBody rd s) := by
  unfold pushBody
  split
  · exact .refuse _
  · split
    case h_1 e he => exact (noTlbMiss_push _ s).stop he
    case h_2 => exact .ok _

theorem noTlbMiss_popBody (rd : Reg) (s : State) : NoTlbMiss (popBody rd s) := by
  unfold popBody
  split
  · exact .refuse _
  · split
    case h_1 e he => exact (noTlbMiss_pop s).stop he
    case h_2 => exact .ok _

theorem noTlbMiss_retBody (s : State) : NoTlbMiss (retBody s) := by
  unfold retBody
  split
  case h_1 e he => exact (noTlbMiss_pop s).stop he
  case h_2 => exact .ok _

theorem noTlbMiss_reti (s : State) : NoTlbMiss (reti s) := by
  unfold reti
  split
  case h_1 e he => exact (noTlbMiss_pop s).stop he
  case h_2 f s1 _ =>
    split
    case h_1 e he => exact (noTlbMiss_pop s1).stop he
    case h_2 => exact .ok _

theorem noTlbMiss_inputBody (rd : Reg) (x : IoEa) (s : State) : NoTlbMiss (inputBody rd x s) := by
  unfold inputBody
  split
  · split
    · exact .refuse _
    · exact .ok _
  · exact .exc (by decide)

theorem noTlbMiss_portWrite (a : Nat) (v : Byte) (s : State) : NoTlbMiss (portWrite a v s) := by
  unfold portWrite
  split
  · exact .refuse _
  · split <;> exact .ok _

theorem noTlbMiss_ioWriteBytes (w : Width) (a v : Word) (s : State) : NoTlbMiss (ioWriteBytes w a v s) := by
  cases w with
  | byte => exact noTlbMiss_portWrite _ _ s
  | word =>
    simp only [ioWriteBytes]
    split
    case h_1 e he => exact (noTlbMiss_portWrite _ _ s).stop he
    case h_2 s1 _ =>
      split
      case h_1 e he => exact (noTlbMiss_portWrite _ _ s1).stop he
      case h_2 => exact .ok _

theorem noTlbMiss_outputBody (rd : Reg) (x : IoEa) (s : State) : NoTlbMiss (outputBody rd x s) := by
  unfold outputBody
  split
  · split
    · exact .refuse _
    · split
      case h_1 e he => exact (noTlbMiss_ioWriteBytes _ _ _ s).stop he
      case h_2 => exact .ok _
  · exact .exc (by decide)

/-- Trap entry through the vector of one of the five exceptions an instruction raises (60_exceptions.md R203 to
R207). -/
def InstrTrap (s t : State) : Prop := ∃ k spc m, 10 ≤ k ∧ k < 15 ∧ TrapEntered k spc m s t

theorem instrTrap_of_takeException {k : Exc} (hk : excNumber k < 15) {next : Word} {s t : State}
    (h : takeException k next s = .next t) : InstrTrap s t :=
  ⟨_, _, _, (excNumber_bounds k).1, hk, takeException_entered h⟩

/-! ## What user mode keeps -/

/-- What an instruction of user mode keeps by its own effect: SSP and the mode bits, and without the I/O privilege the
MMU's registers, the devices and the halted condition too (60_exceptions.md R220 to R222). -/
structure Confined (s t : State) : Prop where
  ssp : t.ssp = s.ssp
  mode : ModeKept s t
  system : s.flag.i = false → SystemKept s t

theorem Confined.refl (s : State) : Confined s s := ⟨rfl, ⟨rfl, rfl, rfl⟩, fun _ => ⟨rfl, rfl, rfl, rfl⟩⟩

theorem Confined.trans {s t u : State} (hst : Confined s t) (htu : Confined t u) : Confined s u := by
  obtain ⟨he, hp, hi⟩ := hst.mode
  obtain ⟨he', hp', hi'⟩ := htu.mode
  exact ⟨htu.ssp.trans hst.ssp, ⟨he'.trans he, hp'.trans hp, hi'.trans hi⟩,
    fun hio => systemKept_trans (hst.system hio) (htu.system (hi.trans hio))⟩

theorem Confined.user {s t : State} (h : Confined s t) (hp : s.flag.p = false) : t.flag.p = false := by
  obtain ⟨-, hkept, -⟩ := h.mode
  exact hkept.trans hp

theorem Confined.setPc {s t : State} (h : Confined s t) (v : Word) : Confined s (t.setPc v) :=
  ⟨h.ssp, h.mode, h.system⟩

theorem Confined.setMem {s t : State} (h : Confined s t) (m : Memory) : Confined s (t.setMem m) :=
  ⟨h.ssp, h.mode, h.system⟩

theorem Confined.setFlag {s t : State} (h : Confined s t) {f : Flags}
    (hf : f.e = s.flag.e ∧ f.p = s.flag.p ∧ f.i = s.flag.i) : Confined s (t.setFlag f) :=
  ⟨h.ssp, hf, h.system⟩

/-- In user mode number Dh names USP, and FLAG's filter keeps E, P and I (10_state.md R23, R33). -/
theorem confined_writeReg {s : State} (hp : s.flag.p = false) (r : Reg) (v : Word) : Confined s (writeReg r v s) := by
  refine ⟨?ssp, ?mode, fun _ => systemKept_writeReg r v s⟩
  case ssp => exact (physRead_writeReg .ssp r v s).trans (if_neg (by cases r <;> simp [physOf, hp]))
  case mode =>
    unfold ModeKept
    rw [flag_writeReg]
    split
    · exact Flags.write_user hp v
    · exact ⟨rfl, rfl, rfl⟩

theorem confined_aluApply {s : State} (hp : s.flag.p = false) (op : AluOp) (rd : Reg) (b : Word) :
    Confined s (aluApply op rd b s) := by
  refine Confined.setFlag ?_ ⟨rfl, rfl, rfl⟩
  split
  · exact confined_writeReg hp rd _
  · exact .refl s

theorem confined_push {v : Word} {s t : State} (hp : s.flag.p = false) (h : push v s = .ok t) : Confined s t := by
  obtain ⟨-, -, -, rfl⟩ := (push_ok_iff v s t).mp h
  have hstored := (Confined.refl s).setMem (storeBytes .word (readReg .sp s - 2).toNat v s.mem)
  exact hstored.trans (confined_writeReg (hstored.user hp) .sp _)

theorem confined_pop {v : Word} {s t : State} (hp : s.flag.p = false) (h : pop s = .ok (v, t)) : Confined s t := by
  obtain ⟨-, -, -, rfl⟩ := (pop_ok_iff s v t).mp h
  exact confined_writeReg hp .sp _

/-- Where IN or OUT completes in user mode the I/O privilege is there (44_io.md R183), and the devices may change. -/
theorem confined_of_ioAllowed {s t : State} (hp : s.flag.p = false) (hio : ioAllowed s = true) (hssp : t.ssp = s.ssp)
    (hmode : ModeKept s t) : Confined s t :=
  ⟨hssp, hmode, fun hi => absurd ((ioAllowed_eq_false hp hi).symm.trans hio) Bool.false_ne_true⟩

/-! ## Instructions -/

theorem settle_confined {next : Word} {r : Except Stop State} {s t : State} (hmiss : NoTlbMiss r)
    (hbody : ∀ u, r = .ok u → Confined s u) (h : settle s next r = .next t) : Confined s t ∨ InstrTrap s t := by
  rcases (settle_next_iff s next r t).mp h with hok | ⟨k, hexc, htrap⟩
  · exact .inl (hbody t hok)
  · exact .inr (instrTrap_of_takeException (hmiss k hexc) htrap)

/-- What an instruction of user mode can do, shape by shape. -/
theorem performForm_confined {f : Form} {s t : State} (hp : s.flag.p = false) (h : performForm f s = .next t) :
    Confined s t ∨ InstrTrap s t := by
  cases f with
  | no => cases h; exact .inl ((Confined.refl s).setPc _)
  | ld rd x =>
    refine settle_confined (noTlbMiss_loadBody rd x s) (fun u hu => ?_) h
    obtain ⟨v, -, rfl⟩ := (loadBody_ok_iff rd x s u).mp hu
    exact (confined_writeReg hp rd v).setPc _
  | st rd x =>
    refine settle_confined (noTlbMiss_storeBody rd x s) (fun u hu => ?_) h
    obtain ⟨-, -, -, rfl⟩ := (storeBody_ok_iff rd x s u).mp hu
    exact ((Confined.refl s).setMem _).setPc _
  | alu op rd x =>
    refine settle_confined (noTlbMiss_aluBody op rd x s) (fun u hu => ?_) h
    obtain ⟨-, b, -, -, rfl⟩ := (aluBody_ok_iff op rd x s u).mp hu
    exact (confined_aluApply hp op rd b).setPc _
  | jump cond x => cases h; exact .inl ((Confined.refl s).setPc _)
  | call x =>
    refine settle_confined (noTlbMiss_callBody x s) (fun u hu => ?_) h
    obtain ⟨p, hpush, rfl⟩ := (callBody_ok_iff x s u).mp hu
    exact (confined_push hp hpush).setPc _
  | inp rd x =>
    refine settle_confined (noTlbMiss_inputBody rd x s) (fun u hu => ?_) h
    obtain ⟨hio, -, rfl⟩ := (inputBody_ok_iff rd x s u).mp hu
    have hwrite := confined_writeReg (s := logIo (.read (ioWidth x) (ioAddr x s)) s) hp rd
      (ioValue (ioWidth x) (ioAddr x s) s)
    exact confined_of_ioAllowed hp hio hwrite.ssp hwrite.mode
  | out rd x =>
    refine settle_confined (noTlbMiss_outputBody rd x s) (fun u hu => ?_) h
    obtain ⟨hio, -, p, hwrite, rfl⟩ := (outputBody_ok_iff rd x s u).mp hu
    obtain ⟨m, d, rfl⟩ := ioWriteBytes_keeps hwrite
    exact confined_of_ioAllowed hp hio rfl ⟨rfl, rfl, rfl⟩
  | push rd =>
    refine settle_confined (noTlbMiss_pushBody rd s) (fun u hu => ?_) h
    obtain ⟨-, p, hpush, rfl⟩ := (pushBody_ok_iff rd s u).mp hu
    exact (confined_push hp hpush).setPc _
  | pop rd =>
    refine settle_confined (noTlbMiss_popBody rd s) (fun u hu => ?_) h
    obtain ⟨-, v, p, hpop, rfl⟩ := (popBody_ok_iff rd s u).mp hu
    have hpopped := confined_pop hp hpop
    exact (hpopped.trans (confined_writeReg (hpopped.user hp) rd v)).setPc _
  | ret =>
    refine settle_confined (noTlbMiss_retBody s) (fun u hu => ?_) h
    obtain ⟨v, p, hpop, rfl⟩ := (retBody_ok_iff s u).mp hu
    exact (confined_pop hp hpop).setPc _
  | reti =>
    refine settle_confined (noTlbMiss_reti s) (fun u hu => ?_) h
    obtain ⟨-, -, rfl⟩ := (reti_ok_iff s u).mp hu
    exact ((confined_writeReg hp .sp _).setFlag (Flags.write_user hp _)).setPc _
  | svc => exact .inr (instrTrap_of_takeException (by decide) h)
  | halt =>
    have htrap : takeException .privilegeViolation (s.pc + 2) s = .next t :=
      (if_neg (by simp [hp])).symm.trans h
    exact .inr (instrTrap_of_takeException (by decide) htrap)

theorem exec_confined {i : Instr} {s t : State} (hp : s.flag.p = false) (h : exec i s = .next t) :
    Confined s t ∨ InstrTrap s t :=
  performForm_confined hp ((exec_eq_performForm i s).symm.trans h)

/-! ## Steps -/

/-- Where the instruction at PC answers a state, it was executed, or the exception of its fetch was taken. -/
theorem runInstr_next {s t : State} (h : runInstr s = .next t) :
    (∃ i, exec i s = .next t) ∨ ∃ k, takeException k (s.pc + 2) s = .next t := by
  unfold runInstr at h
  split at h
  case h_1 i _ => exact .inl ⟨i, h⟩
  case h_2 e _ =>
    rcases (settle_next_iff s _ _ t).mp h with hok | ⟨k, -, htrap⟩
    · cases hok
    · exact .inr ⟨k, htrap⟩

/-- What taking an interrupt leaves (60_exceptions.md R211, R215). -/
theorem takeInterrupt_entered {k : Fin 10} {s t : State} (h : takeInterrupt k s = .next t) :
    TrapEntered k s.pc s.mmu s t :=
  trapEntered_of_ok ⟨rfl, rfl, rfl⟩ ((takeInterrupt_next_iff k s t).mp h)

@[simp] theorem endStep_flag (s : State) : (endStep s).flag = s.flag := by
  obtain ⟨m, he, -⟩ := endStep_eq s
  rw [he]
  rfl

theorem modeKept_endStep {s t : State} (h : ModeKept s t) : ModeKept s (endStep t) := by
  simpa [ModeKept] using h

end Sys2Proof.Machine
end

section
/-! SUPPORT. Which bits each port's read can show, whatever the oracle answers (60_exceptions.md R230 to R238). -/

namespace Sys2Proof.Machine

/-- The ports whose bytes the CPU's side or the mode switch answers (20_memory.md R64, R66, 60_exceptions.md R235,
R237). -/
def ownPorts : List Nat := [0x1F, 0x2F, 0xF4, 0xF5, 0xF7]

theorem portByte_device {a : Nat} (h : a ∉ ownPorts) (s : State) : portByte a s = deviceByte a s := by
  unfold portByte
  split
  case h_6 => rfl
  all_goals exact absurd (by decide) h

theorem deviceByte_masked {a : Nat} {m : Byte} (h : readMask a &&& m = 0) (s : State) : deviceByte a s &&& m = 0 := by
  unfold deviceByte
  split
  · simp
  · simp [BitVec.and_assoc, h]

/-- A device's port reads 0 in the bits its layout prints as 0 (60_exceptions.md R236). -/
theorem portByte_masked {a : Nat} {m : Byte} (h : a ∉ ownPorts ∧ readMask a &&& m = 0) (s : State) :
    portByte a s &&& m = 0 := by
  rw [portByte_device h.1, deviceByte_masked h.2]

/-- A byte whose layout draws nothing reads 0 (60_exceptions.md R230). -/
theorem portByte_undrawn {a : Nat} (h : a ∉ ownPorts ∧ readMask a = 0) (s : State) : portByte a s = 0 := by
  rw [portByte_device h.1, deviceByte, if_pos h.2]

theorem readMask_free {a : Nat} (h : 0x38 ≤ a ∧ a ≤ 0xEF) : readMask a = 0 := by
  unfold readMask
  split
  case h_35 => exact if_pos h
  all_goals exact absurd h (by decide)

theorem not_mem_ownPorts_of_free {a : Nat} (h : 0x38 ≤ a ∧ a ≤ 0xEF) : a ∉ ownPorts := by
  intro hown
  fin_cases hown <;> exact absurd h (by decide)

/-- The bytes that 60_exceptions.md R231 and, for DSw and Fnc, R238 print 00H. -/
theorem readMask_printedZero :
    ∀ a ∈ [0x08, 0x0A, 0x0C, 0x0E, 0x10, 0x18, 0x1A, 0x1C, 0x1E, 0x20, 0x22, 0x24, 0x26, 0x28, 0x2A, 0x2C, 0x2E,
      0x30, 0x32, 0x33, 0x34, 0x35, 0x36, 0xF0, 0xF2, 0xFC, 0xFE], a ∉ ownPorts ∧ readMask a = 0 := by
  decide

theorem modeCode_cases (m : ModeSwitch) :
    modeCode m = 0 ∨ modeCode m = 1 ∨ modeCode m = 2 ∨ modeCode m = 3 ∨ modeCode m = 7 := by
  cases m <;> decide

end Sys2Proof.Machine
end

section
/-! SUPPORT. Which interrupt is accepted among the requesting sources (60_exceptions.md R211 to R213, R236). -/

namespace Sys2Proof.Machine

/-- Source `k` requests an interrupt and was ever enabled (60_exceptions.md R211, R236). -/
def pendingSource (requests : BitVec 10) (s : State) (k : Fin 10) : Bool :=
  (requests &&& s.io.irqEnabled).getLsbD k.val

theorem pendingSource_iff (requests : BitVec 10) (s : State) (k : Fin 10) :
    pendingSource requests s k = true ↔ s.io.irqEnabled.getLsbD k = true ∧ requests.getLsbD k = true := by
  simp [pendingSource, and_comm]

section Accept

variable (requests : BitVec 10) (first : Fin 10) {s : State}

theorem acceptAmong_disabled (he : s.flag.e = false) : acceptAmong requests first s = none := by
  simp [acceptAmong, he]

theorem acceptAmong_first (he : s.flag.e = true) (hfirst : pendingSource requests s first = true) :
    acceptAmong requests first s = some first :=
  (if_pos he).trans (if_pos hfirst)

theorem acceptAmong_search (he : s.flag.e = true) (hfirst : ¬pendingSource requests s first = true) :
    acceptAmong requests first s = (List.finRange 10).find? (pendingSource requests s) :=
  (if_pos he).trans (if_neg hfirst)

/-- Without a pending source none is accepted, whatever E is. -/
theorem acceptAmong_none (hnone : ∀ k, ¬pendingSource requests s k = true) :
    acceptAmong requests first s = none := by
  cases he : s.flag.e with
  | false => exact acceptAmong_disabled requests first he
  | true =>
    rw [acceptAmong_search requests first he (hnone first)]
    exact List.find?_eq_none.mpr fun k _ => hnone k

/-- With E = 1 and a pending source, a pending source is accepted. -/
theorem acceptAmong_some (he : s.flag.e = true) {k : Fin 10} (hk : pendingSource requests s k = true) :
    ∃ j, acceptAmong requests first s = some j ∧ pendingSource requests s j = true := by
  by_cases hfirst : pendingSource requests s first = true
  · exact ⟨first, acceptAmong_first requests first he hfirst, hfirst⟩
  · rw [acceptAmong_search requests first he hfirst]
    cases hfound : (List.finRange 10).find? (pendingSource requests s) with
    | none => exact absurd hk (List.find?_eq_none.mp hfound k (List.mem_finRange k))
    | some j => exact ⟨j, rfl, List.find?_some hfound⟩

end Accept

/-- What a step accepts is what `acceptAmong` answers to the oracle's requests: with no source ever enabled that is
none. -/
theorem acceptedInterrupt_eq (s : State) :
    acceptedInterrupt s = acceptAmong (Config.irqRequests s.io.history s.draws)
      (Config.irqPriority s.draws (Config.irqRequests s.io.history s.draws &&& s.io.irqEnabled)) s := by
  unfold acceptedInterrupt
  split
  case isTrue => rfl
  case isFalse h =>
    symm
    cases he : s.flag.e with
    | false => exact acceptAmong_disabled _ _ he
    | true =>
      have hnever : s.io.irqEnabled = 0 := by simpa [he] using h
      exact acceptAmong_none _ _ fun k => by simp [pendingSource, hnever]

theorem acceptedInterrupt_disabled {s : State} (he : s.flag.e = false) : acceptedInterrupt s = none :=
  (acceptedInterrupt_eq s).trans (acceptAmong_disabled _ _ he)

/-- Taking an interrupt completes where `trapReady` says so. -/
theorem takeInterrupt_completes {s : State} (h : trapReady s = true) (k : Fin 10) :
    ∃ t, takeInterrupt k s = .next t := by
  simp only [takeInterrupt_next_iff]
  exact trapEntry_completes h k.val s.pc ⟨rfl, rfl, rfl⟩

end Sys2Proof.Machine
end

section
/-! Exceptions, interrupts and ports: the statements about 60_exceptions.md. -/

namespace Sys2Proof.Machine

/-- Settles O56: an interrupt's entry and a fetch's exception are traps, and an instruction is `exec_confined`. -/
theorem userModeIsLeftOnlyByTraps : Obligations.UserModeIsLeftOnlyByTraps := by
  intro s t hp h
  obtain ⟨-, -, u, rfl, ⟨k, -, hirq⟩ | ⟨-, hrun⟩⟩ := (step_next_iff s t).mp h
  · exact .inr ⟨u, k, _, _, rfl, by omega, takeInterrupt_entered hirq⟩
  · rcases runInstr_next hrun with ⟨i, hexec⟩ | ⟨k, hexc⟩
    · rcases exec_confined hp hexec with hkept | ⟨k, spc, m, -, hk, hentered⟩
      · exact .inl (modeKept_endStep hkept.mode)
      · exact .inr ⟨u, k, spc, m, rfl, by omega, hentered⟩
    · exact .inr ⟨u, _, _, _, rfl, (excNumber_bounds k).2, takeException_entered hexc⟩

/-- Settles O57, by `exec_confined` without the I/O privilege. -/
theorem userModeIsConfined : Obligations.UserModeIsConfined := by
  intro i s t hp hi h
  exact (exec_confined hp h).imp_left fun hkept => ⟨hkept.system hi, hkept.ssp, hkept.mode⟩

/-- Settles O45: the devices' ports by their masks, the others by what answers them. -/
theorem portsReadWithinTheirLayout : Obligations.PortsReadWithinTheirLayout := by
  intro s a
  refine ⟨fun h => ?free, fun h => portByte_undrawn (readMask_printedZero a h) s, ?status, ?usd, ?mode, ?cmd, ?ram,
    ?causeHigh, ?cause, ?page, ?rotary, ?function⟩
  case free => exact portByte_undrawn ⟨not_mem_ownPorts_of_free h, readMask_free h⟩ s
  case status => rintro (rfl | rfl | rfl) <;> exact portByte_masked (by decide) s
  case usd => rintro rfl; exact portByte_masked (by decide) s
  case mode => rintro rfl; exact modeCode_cases _
  case cmd => rintro rfl; exact portByte_masked (by decide) s
  case ram => rintro rfl; rfl
  case causeHigh => rintro rfl; rfl
  case cause => rintro rfl; rfl
  case page => rintro rfl; rfl
  case rotary => rintro rfl; exact portByte_masked (by decide) s
  case function => rintro rfl; exact portByte_masked (by decide) s

/-- Settles O53: what is accepted is `acceptAmong_none` and `acceptAmong_some`; trap entry leaves E = 0, which accepts
nothing. -/
theorem interruptsAreTakenBetweenInstructions : Obligations.InterruptsAreTakenBetweenInstructions := by
  refine ⟨fun requests first s => ⟨?none, fun he k henabled hrequest => ?some⟩,
    fun s hh hm => ⟨acceptedInterrupt_eq s, ?step⟩, fun k s hready => ?entry⟩
  case none =>
    rintro (he | hsilent)
    · exact acceptAmong_disabled requests first he
    · refine acceptAmong_none requests first fun k hk => ?_
      obtain ⟨henabled, hrequest⟩ := (pendingSource_iff requests s _).mp hk
      exact Bool.false_ne_true ((hsilent k henabled).symm.trans hrequest)
  case some =>
    have hpending := (pendingSource_iff requests s _).mpr ⟨henabled, hrequest⟩
    obtain ⟨j, hj, hbit⟩ := acceptAmong_some requests first he hpending
    obtain ⟨hjEnabled, hjRequest⟩ := (pendingSource_iff requests s _).mp hbit
    refine ⟨j, hj, hjEnabled, hjRequest, fun hfe hfr => Option.some.inj (hj.symm.trans ?_)⟩
    exact acceptAmong_first requests first he ((pendingSource_iff requests s _).mpr ⟨hfe, hfr⟩)
  case step => cases haccepted : acceptedInterrupt s <;> simp [step, hh, hm, haccepted]
  case entry =>
    obtain ⟨t, ht⟩ := takeInterrupt_completes hready k
    have hentered := takeInterrupt_entered ht
    have he : (endStep t).flag.e = false := by rw [endStep_flag, hentered.flag]
    exact ⟨t, ht, hentered, acceptedInterrupt_disabled he⟩

end Sys2Proof.Machine
end

section
/-! SUPPORT. The state-count table by rows: each shape's count, and the columns of the operand forms
(70_reset_and_hazards.md R265 to R267). -/

namespace Sys2Proof.Machine

section Shapes

variable (rd : Reg) (taken : Bool) (n : Nat)

theorem stateCount_ofLd (x : Operand) : stateCount (.ofLd rd x) taken n = operandStates 7 4 x := by
  rw [stateCount, form_ofLd]

theorem stateCount_ofAlu (op : AluOp) (x : Operand) : stateCount (.ofAlu op rd x) taken n = aluStates op n x := by
  rw [stateCount, form_ofAlu]

theorem stateCount_ofJump (cond : Cond) (x : JumpEa) : stateCount (.ofJump cond x) taken n = jumpStates cond taken := by
  rw [stateCount, form_ofJump]

theorem stateCount_ofCall (x : JumpEa) : stateCount (.ofCall x) taken n = 6 := by
  rw [stateCount, form_ofCall]

end Shapes

/-- A jump takes 5 states when it is taken, JMP always (R266). -/
theorem jumpStates_eq (cond : Cond) (taken : Bool) :
    jumpStates cond taken = if cond = .always ∨ taken = true then 5 else 4 :=
  (ite_or ..).symm

/-- ADD, SUB, CMP, AND, OR and XOR share one row. -/
theorem aluStates_addRow (op : AluOp) (n : Nat)
    (h : op = .add ∨ op = .sub ∨ op = .cmp ∨ op = .and ∨ op = .or ∨ op = .xor) :
    aluStates op n = operandStates 7 5 := by
  rcases h with rfl | rfl | rfl | rfl | rfl | rfl <;> rfl

/-- DIV and MOD share one row. -/
theorem aluStates_divRow (op : AluOp) (n : Nat) (h : op = .div ∨ op = .mod) :
    aluStates op n = operandStates 73 71 := by
  rcases h with rfl | rfl <;> rfl

/-- The four shifts share one row, to which the count adds (R267). -/
theorem aluStates_shiftRow (op : AluOp) (n : Nat) (h : op = .shla ∨ op = .shll ∨ op = .shra ∨ op = .shrl) :
    aluStates op n = fun x => operandStates 8 6 x + n := by
  rcases h with rfl | rfl | rfl | rfl <;> rfl

/-- The eight operand forms in the order of the table's columns, Drct to B Indr. -/
def operandColumns (rs : Reg) (d v : Word) (k : Int) : List Operand :=
  [.mem (.direct d), .mem (.indexed d rs), .imm v, .mem (.fpRel k), .reg rs, .imm4 k, .mem (.indir rs),
    .mem (.byteIndir rs)]

/-- The columns of a family's row, when one function of the operand form gives the family's counts. -/
theorem columns_stateCount {f : Operand → Instr} {g : Operand → Nat} {taken : Bool} {n : Nat}
    (h : ∀ x, stateCount (f x) taken n = g x) (rs : Reg) (d v : Word) (k : Int) :
    (operandColumns rs d v k).map (fun x => stateCount (f x) taken n) = (operandColumns rs d v k).map g :=
  List.map_congr_left fun x _ => h x

/-- The columns of a flag-changing row. -/
theorem columns_ofAlu {op : AluOp} {g : Operand → Nat} {n : Nat} (h : aluStates op n = g) (rd : Reg) (taken : Bool)
    (rs : Reg) (d v : Word) (k : Int) :
    (operandColumns rs d v k).map (fun x => stateCount (.ofAlu op rd x) taken n) = (operandColumns rs d v k).map g :=
  columns_stateCount (fun x => (stateCount_ofAlu rd taken n op x).trans (congrFun h x)) rs d v k

end Sys2Proof.Machine
end

section
/-! Timing: the statement about 70_reset_and_hazards.md. -/

namespace Sys2Proof.Machine

/-- Settles O60: a family's row is its shape's count over `operandColumns`; the other rows compute. -/
theorem stateCountsFollowTheTable : Obligations.StateCountsFollowTheTable := by
  intro rd rs d v k taken n counts
  refine ⟨?ld, fun op hop => ?add, ?adds, ?mul, fun op hop => ?div, fun op hop => ?shift, fun cond x => ?jump,
    stateCount_ofCall taken n, ?single⟩
  case ld => exact columns_stateCount (stateCount_ofLd rd taken n) rs d v k
  case add => exact columns_ofAlu (aluStates_addRow op n hop) rd taken rs d v k
  case adds => exact columns_ofAlu (op := .adds) (g := operandStates 8 6) rfl rd taken rs d v k
  case mul => exact columns_ofAlu (op := .mul) (g := operandStates 57 55) rfl rd taken rs d v k
  case div => exact columns_ofAlu (aluStates_divRow op n hop) rd taken rs d v k
  case shift => exact columns_ofAlu (aluStates_shiftRow op n hop) rd taken rs d v k
  case jump => exact (stateCount_ofJump taken n cond x).trans (jumpStates_eq cond taken)
  case single => exact ⟨rfl, rfl, rfl, rfl, rfl, rfl, rfl, rfl, rfl, rfl, rfl, rfl, rfl, rfl, rfl, rfl, rfl, rfl⟩

end Sys2Proof.Machine
end
